-- ==== Sys2Proof/Word.lean ====
section
/-!
DEFINITION. The words of GC-CORE's host port: 32-bit data and a 14-bit byte address (spec/20_memory.md R40, spec/00_scope.md R5).
-/

namespace Sys2Proof

/-- One word of host data (R40; BUS_DATA_WIDTH of R5). -/
abbrev Word := BitVec 32

/-- A byte address of the host port (R40; BUS_ADDR_WIDTH of R5). -/
abbrev Addr := BitVec 14

end Sys2Proof
end

