-- ==== Sys2Proof/Syntax.lean ====
section
/-!
DEFINITION. The seven commands of GC-CORE, one constructor per row of spec/opcode_table.json (spec/30_encoding.md R72).
-/

namespace Sys2Proof

/-- A command. `gen` carries the two tap indices as the plain numbers an assembler line gives (R71, R75); whether they fit their
4-bit fields is `Instr.WellFormed`, whether they lie in 1..10 is GEN's own check (R100). -/
inductive Instr where
  /-- NOP, OP = 0 (R140). -/
  | nop
  /-- GEN t1, t2, OP = 1 (R90). -/
  | gen (t1 t2 : Nat)
  /-- UNPACK, OP = 2 (R110). -/
  | unpack
  /-- SEARCH, OP = 3 (R120). -/
  | search
  /-- CORR, OP = 4 (R128). -/
  | corr
  /-- CLRERR, OP = 5 (R141). -/
  | clrerr
  /-- SRST, OP = 6 (R142). -/
  | srst
  deriving DecidableEq, Repr

end Sys2Proof
end

