-- ==== Sys2Proof/WellFormed.lean ====
section
/-!
DEFINITION. Which commands can be encoded (spec/30_encoding.md R71, R75: "t1 and t2 must be 0..15 to be encodable").
-/

namespace Sys2Proof

/-- The command fits its encoding: a tap index fits its 4-bit field. A tap index 0 or 11..15 is well formed: it decodes, and GEN
refuses it with TAP_RANGE (R73, R100). -/
def Instr.wellFormed : Instr → Bool
  | .gen t1 t2 => decide (t1 ≤ 15) && decide (t2 ≤ 15)
  | .nop | .unpack | .search | .corr | .clrerr | .srst => true

/-- `Instr.wellFormed` as a proposition. -/
abbrev Instr.WellFormed (i : Instr) : Prop := i.wellFormed = true

end Sys2Proof
end

