-- ==== Sys2Proof/Decode.lean ====
section
/-!
DEFINITION. The command word, from bits to a command and back (spec/30_encoding.md R70 to R73). A command is one 32-bit word written
to CMD; there is no other form and no mode changes its decoding (R70).
-/

namespace Sys2Proof

/-- `w[hi:lo]` as an unsigned integer (spec/00_scope.md section 5). -/
def bitField (w : Word) (hi lo : Nat) : Nat :=
  w.toNat / 2 ^ lo % 2 ^ (hi + 1 - lo)

/-- Why a word is reserved (R73). Each of them is the one error BAD_CMD to the host (R154). -/
inductive DecodeError where
  /-- Bits 31:16 (Z1) are not 0. -/
  | z1NotZero
  /-- Bits 3:0 (Z0) are not 0. -/
  | z0NotZero
  /-- OP is 7 to 15. -/
  | reservedOp
  /-- OP is not 1 (GEN), and A or B is not 0. -/
  | operandNotZero
  deriving DecidableEq, Repr

/-- A command that takes no operand: its A and B fields must be 0 (R70, R73). -/
def decodePlain (w : Word) (i : Instr) : Except DecodeError Instr :=
  if bitField w 11 8 = 0 ∧ bitField w 7 4 = 0 then .ok i else .error .operandNotZero

/-- The command a word written to CMD encodes (R70 to R72); every other word is reserved (R73). -/
def decode (w : Word) : Except DecodeError Instr :=
  if bitField w 31 16 ≠ 0 then .error .z1NotZero
  else if bitField w 3 0 ≠ 0 then .error .z0NotZero
  else match bitField w 15 12 with
    | 0 => decodePlain w .nop
    | 1 => .ok (.gen (bitField w 11 8) (bitField w 7 4))
    | 2 => decodePlain w .unpack
    | 3 => decodePlain w .search
    | 4 => decodePlain w .corr
    | 5 => decodePlain w .clrerr
    | 6 => decodePlain w .srst
    | _ => .error .reservedOp

/-- The word of a command (R72, column "word"). -/
def encode : Instr → Word
  | .nop => 0x00000000
  | .gen t1 t2 => BitVec.ofNat 32 (0x00001000 + t1 * 2 ^ 8 + t2 * 2 ^ 4)
  | .unpack => 0x00002000
  | .search => 0x00003000
  | .corr => 0x00004000
  | .clrerr => 0x00005000
  | .srst => 0x00006000

/-- The row's mask in R72: the bits that are fixed. -/
def opcodeMask : Instr → Word
  | .gen _ _ => 0xFFFFF00F
  | .nop | .unpack | .search | .corr | .clrerr | .srst => 0xFFFFFFFF

/-- The row's match in R72: the value of the fixed bits. -/
def opcodeMatch : Instr → Word
  | .nop => 0x00000000
  | .gen _ _ => 0x00001000
  | .unpack => 0x00002000
  | .search => 0x00003000
  | .corr => 0x00004000
  | .clrerr => 0x00005000
  | .srst => 0x00006000

/-- What the decoder reads from a word given as spec/opcode_table.json numbers its bits; a command has 32 bits, so bits above
`nbits` are 0, and nothing longer is a command (R70). -/
def decodeTableWord (nbits w : Nat) : Option Instr :=
  if nbits ≤ 32 then (decode (BitVec.ofNat 32 (w % 2 ^ nbits))).toOption else none

end Sys2Proof
end

