-- ==== Sys2Proof/Config.lean ====
section
/-!
DEFINITION. What is fixed for one GC-CORE instance: the constants of spec/00_scope.md R4, the open parameter SAMPLE_WIDTH of R5, and
the free values that spec/93_implementation_defined.md U1 calls 'any value'. An `opaque` constant has no value that Lean can see, so a
theorem that mentions one holds for every value of it.
-/

namespace Sys2Proof.Config

/-- N: chips per sequence, samples per signal, candidate shifts (R4). -/
abbrev chips : Nat := 1023

/-- LFSR_PRESET: all ones in 10 bits (R4, R91). -/
abbrev lfsrPreset : BitVec 10 := 0x3FF

/-- TAP_MIN (R4). -/
abbrev tapMin : Nat := 1

/-- TAP_MAX (R4). -/
abbrev tapMax : Nat := 10

/-- THRESHOLD (R4): a sum qualifies when its magnitude is greater. -/
abbrev threshold : Int := 828

/-- SENTINEL: the result "not detected" (R4, R125). -/
abbrev sentinel : Int := 10000

/-- The sample width that a width code stands for: W = code + 2, so that W runs over exactly 2..22 (R5, D5, U10). -/
abbrev widthOf (code : Fin 21) : Nat := code.val + 2

/-- SAMPLE_WIDTH of the instance that leaves reset, as a width code: OPEN in R5, so no theorem can see which it is
(notes/assumptions/1.md). -/
opaque widthCode : Fin 21

/-- Which hard reset of which instance left the memories as they are. Two states with the same epoch are taken to be states of one
instance since one hard reset, so their unwritten elements hold the same free values; instances told apart by `serial` hold free values
that nothing relates. DESIGN CHOICE: the spec names no instance and relates no unspecified content of two instances
(notes/assumptions/2.md, notes/assumptions/13.md). -/
structure Epoch where
  /-- Which instance it is, among all that exist (R58). -/
  serial : Nat
  /-- How many hard resets it has had since it left the first. -/
  resets : Nat
  deriving DecidableEq, Repr

/-- The epoch after one more hard reset of the same instance. -/
def Epoch.next (e : Epoch) : Epoch :=
  { e with resets := e.resets + 1 }

/-- The serial number of the instance that leaves reset in `State.reset`: no theorem can see which it is
(notes/assumptions/5.md). -/
opaque serial : Nat

/-- The bits of SIG[i] that the hard reset `epoch` left there: unspecified (R182, U1); the low W of the 22 bits are the sample.
DESIGN CHOICE: a function of the instance, its hard reset and the element, so two states that agree on all three read alike
(notes/assumptions/2.md). -/
opaque freeSample : (epoch : Epoch) → (i : Nat) → BitVec 22

/-- The packed bit CHIPMEM[i] that the hard reset `epoch` left there: unspecified (R182, U1); chosen as `freeSample` is
(notes/assumptions/2.md). -/
opaque freeChip : (epoch : Epoch) → (i : Nat) → Bool

/-- The element UNPK[i] that the hard reset `epoch` left there: unspecified (R182, U1); chosen as `freeSample` is
(notes/assumptions/2.md). -/
opaque freeUnpk : (epoch : Epoch) → (i : Nat) → BitVec 2

end Sys2Proof.Config
end

