-- ==== Sys2Proof/Machine/State.lean ====
section
/-!
DEFINITION. The state of GC-CORE (spec/10_state.md), what the host can do to it (spec/20_memory.md R40, R56), and the state a hard
reset leaves (spec/70_reset_and_hazards.md R181, R182).
-/

namespace Sys2Proof.Machine

/-- A memory of the block: (element index, element) pairs, indexes strictly rising, an element that nothing has written since the
last hard reset not listed. What an unlisted element reads as is `State.sigAt`, `State.chipAt`, `State.unpkAt` (a free value, U1). -/
abbrev Mem (α : Type) := List (Nat × α)

/-- A transaction on the host port (R40): one aligned 32-bit read or write. -/
inductive Txn where
  /-- `MemRead(addr, 4)`: returns a word. -/
  | read (addr : Addr)
  /-- `MemWrite(addr, 4, data)`: returns nothing. -/
  | write (addr : Addr) (data : Word)
  deriving DecidableEq, Repr

/-- What the host may do next (the rows of R56), and the two things R42 and U9 say it must not do. -/
inductive HostAction where
  /-- A 32-bit transaction (R40). -/
  | transact (t : Txn)
  /-- A byte or half-word transaction, which only a system bus around the block can issue: refused (R42). -/
  | subword (t : Txn)
  /-- The reset input, asserted and released: between two transactions, or while the transaction given is in progress, which is then
  abandoned and returns nothing the host may use (R180, U8). -/
  | hardReset (during : Option Txn)
  /-- Two transactions at once, outside the host's contract (R56, U9). -/
  | overlap (t u : Txn)
  deriving DecidableEq, Repr

/-- Why the machine stops. The spec's own errors (R150) are no faults: a refused transaction is a next state. -/
inductive Fault where
  /-- Raised by `Machine.hostAct` for `HostAction.overlap`: a transaction issued before the one before it has returned is out of
  contract, and no rule says what happens (R56, U9: "fault (out of contract)"). Safe: the model stops. -/
  | overlappingTransactions
  deriving DecidableEq, Repr

/-- Why a command has no meaning in the model. -/
inductive Refusal where
  /-- Raised by an arm of `Machine.exec` whose command the model gives no meaning; no arm does so. Safe: the model stops. -/
  | notModelled (mnemonic : String)
  deriving DecidableEq, Repr

/-- The errors of R150 that something raises (code 0, NONE, stands for no error). -/
inductive ErrCode where
  | tapRange
  | noChips
  | noUnpk
  | badCmd
  | badAccess
  deriving DecidableEq, Repr

/-- Everything the spec gives the machine (spec/10_state.md section 1), and five fields of the model's own, last. -/
@[ext]
structure State where
  /-- G1, 10-bit shift register; bit k - 1 is GPS stage k (R10). -/
  g1 : BitVec 10
  /-- G2, numbered as G1 (R11). -/
  g2 : BitVec 10
  /-- T1, first tap index of the sequence in CHIPMEM (R12). -/
  t1 : BitVec 4
  /-- T2, second tap index (R12). -/
  t2 : BitVec 4
  /-- CHIPCNT, index of the next chip to write (R13). -/
  chipcnt : BitVec 10
  /-- CHIPMEM[0..1023], the packed bits; 1 means chip -1 (R14). -/
  chipMem : Mem Bool
  /-- UNPK[0..1022], the unpacked chips, 2-bit two's complement (R15). -/
  unpkMem : Mem (BitVec 2)
  /-- SIG[0..1022], the samples, each the integer that W bits of two's complement denote (R16). -/
  sigMem : Mem Int
  /-- SHIFT, the candidate shift last evaluated (R17). -/
  shift : BitVec 10
  /-- ACC, the integer that W + 10 bits of two's complement denote: sum(SHIFT) after a search (R18). -/
  acc : Int
  /-- RESULT, 16-bit two's complement (R19). -/
  result : BitVec 16
  /-- CVALID: CHIPMEM holds the sequence of (T1, T2) (R20). -/
  cvalid : Bool
  /-- UVALID: UNPK matches CHIPMEM (R20). -/
  uvalid : Bool
  /-- DONE: the result registers are the outcome for the current SIG and UNPK (R20). -/
  done : Bool
  /-- DET: the last search found a qualifying shift (R20). -/
  det : Bool
  /-- NEG: its sum was negative (R20). -/
  neg : Bool
  /-- ERR: a transaction was refused since the last CLRERR, SRST or hard reset (R21). -/
  err : Bool
  /-- ERRCODE, the code of the first such refusal (R21). -/
  errcode : BitVec 4
  /-- ERRWR: it was a write (R21). -/
  errwr : Bool
  /-- ERRVAL: its command word bits 15:0 or its byte address (R21). -/
  errval : BitVec 16
  /-- The model's own: SAMPLE_WIDTH of this instance, W = widthCode + 2; nothing changes it (R5, notes/assumptions/1.md). -/
  widthCode : Fin 21
  /-- The model's own: which instance this is and how many hard resets it has had; it picks the free values that memory holds
  (notes/assumptions/2.md). -/
  epoch : Config.Epoch
  /-- The model's own: what the host does next, first first; a step takes the first (R50, R195; notes/assumptions/3.md). -/
  script : List HostAction
  /-- The model's own: the words that reads returned to the host, latest first (R40, notes/assumptions/4.md). -/
  returned : List Word
  deriving DecidableEq, Repr

/-- SAMPLE_WIDTH, 2 ≤ W ≤ 22 (R5). -/
abbrev State.width (s : State) : Nat := Config.widthOf s.widthCode

/-- The machine right after a hard reset: the values of R181; nothing listed in the three memories, so every element is a free value
(R182); no host action waiting and nothing returned yet (the model's own fields, notes/assumptions/5.md). -/
def State.reset : State where
  g1 := Config.lfsrPreset
  g2 := Config.lfsrPreset
  t1 := 0
  t2 := 0
  chipcnt := 0
  chipMem := []
  unpkMem := []
  sigMem := []
  shift := 0
  acc := 0
  result := 10000
  cvalid := false
  uvalid := false
  done := false
  det := false
  neg := false
  err := false
  errcode := 0
  errwr := false
  errval := 0
  widthCode := Config.widthCode
  epoch := Config.Epoch.mk Config.serial 0
  script := []
  returned := []

end Sys2Proof.Machine
end

