-- ==== Sys2Proof/Machine/Ops.lean ====
section
/-!
DEFINITION. The named operations over the memories and registers of GC-CORE: two's complement, the element memories, one update per
group of registers that the spec writes together, error entry and its return (spec/60_exceptions.md R157, R161), and the two resets
(spec/43_system_ops.md R142, spec/70_reset_and_hazards.md R180).
-/

namespace Sys2Proof.Machine

/-! ### Two's complement (spec/00_scope.md section 5) -/

/-- `sext_n(v)`: the signed integer that the n-bit pattern `v` denotes. -/
def sext (n v : Nat) : Int :=
  if v < 2 ^ (n - 1) then (v : Int) else (v : Int) - 2 ^ n

/-- The value an n-bit two's complement register holds after the integer `x` is written to it. -/
def narrow (n : Nat) (x : Int) : Int :=
  sext n (x % 2 ^ n).toNat

/-- The 32-bit pattern of a signed integer, "sign-extended to 32 bits". -/
def pattern32 (x : Int) : Word :=
  BitVec.ofInt 32 x

/-! ### The element memories -/

/-- The element listed at index `i`, if any. -/
def Mem.find {α : Type} : Mem α → Nat → Option α
  | [], _ => none
  | (j, v) :: rest, i => if j = i then some v else Mem.find rest i

/-- Write element `i`, keeping the indexes rising. -/
def Mem.store {α : Type} : Mem α → Nat → α → Mem α
  | [], i, v => [(i, v)]
  | (j, u) :: rest, i, v =>
    if i < j then (i, v) :: (j, u) :: rest
    else if i = j then (i, v) :: rest
    else (j, u) :: Mem.store rest i v

/-- The pairs (lo, v0), (lo + 1, v1), ... for the values v0, v1, ... -/
def Mem.pairs {α : Type} : Nat → List α → Mem α
  | _, [] => []
  | lo, v :: rest => (lo, v) :: Mem.pairs (lo + 1) rest

/-- Write elements lo, lo + 1, ... with the values given, in that order: what as many single writes do, in one pass. -/
def Mem.fill {α : Type} (m : Mem α) (lo : Nat) (vals : List α) : Mem α :=
  m.filter (fun c => decide (c.1 < lo)) ++ Mem.pairs lo vals ++ m.filter (fun c => decide (lo + vals.length ≤ c.1))

/-- Elements lo, lo + 1, ..., lo + n - 1 of a memory that lists nothing below `lo`, in one pass; an unlisted element is `free` of
its index. -/
def Mem.values {α : Type} (free : Nat → α) : (n lo : Nat) → Mem α → List α
  | 0, _, _ => []
  | n + 1, lo, [] => free lo :: Mem.values free n (lo + 1) []
  | n + 1, lo, (j, v) :: rest =>
    if j = lo then v :: Mem.values free n (lo + 1) rest
    else free lo :: Mem.values free n (lo + 1) ((j, v) :: rest)

/-- Indexes strictly rising from `lo` on and below `bound`. -/
def Mem.wfFrom {α : Type} (bound : Nat) : Nat → Mem α → Bool
  | _, [] => true
  | lo, (j, _) :: rest => decide (lo ≤ j) && decide (j < bound) && Mem.wfFrom bound (j + 1) rest

/-- The canonical form of a memory of `bound` elements: indexes strictly rising, each below `bound`. -/
def Mem.wf {α : Type} (bound : Nat) (m : Mem α) : Bool :=
  Mem.wfFrom bound 0 m

/-- The sample a hard reset left in SIG[i]: the low W of 22 free bits, as W-bit two's complement (R182, U1;
notes/assumptions/2.md). -/
def resetSample (code : Fin 21) (epoch : Config.Epoch) (i : Nat) : Int :=
  narrow (Config.widthOf code) (Config.freeSample epoch i).toNat

/-- SIG[i], 0 ≤ i ≤ 1022 (R16). -/
def State.sigAt (s : State) (i : Nat) : Int :=
  (Mem.find s.sigMem i).getD (resetSample s.widthCode s.epoch i)

/-- CHIPMEM[i], 0 ≤ i ≤ 1023 (R14). -/
def State.chipAt (s : State) (i : Nat) : Bool :=
  (Mem.find s.chipMem i).getD (Config.freeChip s.epoch i)

/-- UNPK[i], 0 ≤ i ≤ 1022 (R15). -/
def State.unpkAt (s : State) (i : Nat) : BitVec 2 :=
  (Mem.find s.unpkMem i).getD (Config.freeUnpk s.epoch i)

/-- SIG[0], ..., SIG[1022] (R16). -/
def State.sigValues (s : State) : List Int :=
  Mem.values (resetSample s.widthCode s.epoch) Config.chips 0 s.sigMem

/-- CHIPMEM[0], ..., CHIPMEM[1022], the chips without the pad bit (R14). -/
def State.chipValues (s : State) : List Bool :=
  Mem.values (Config.freeChip s.epoch) Config.chips 0 s.chipMem

/-- UNPK[0], ..., UNPK[1022] (R15). -/
def State.unpkValues (s : State) : List (BitVec 2) :=
  Mem.values (Config.freeUnpk s.epoch) Config.chips 0 s.unpkMem

/-- `CHIPMEM[i] <- p`. -/
def State.writeChip (s : State) (i : Nat) (p : Bool) : State :=
  { s with chipMem := Mem.store s.chipMem i p }

/-- CHIPMEM[0], CHIPMEM[1], ... take the values given, in that order. -/
def State.fillChips (s : State) (bits : List Bool) : State :=
  { s with chipMem := Mem.fill s.chipMem 0 bits }

/-- UNPK[0], UNPK[1], ... take the values given, in that order. -/
def State.fillUnpk (s : State) (chips : List (BitVec 2)) : State :=
  { s with unpkMem := Mem.fill s.unpkMem 0 chips }

/-- `SIG[i] <- sext_W(v[W-1:0])`: the low W bits of the word (R46, U7). -/
def State.writeSig (s : State) (i : Nat) (v : Word) : State :=
  { s with sigMem := Mem.store s.sigMem i (narrow s.width v.toNat) }

/-! ### The registers -/

/-- `T1 <- a; T2 <- b` (R90). -/
def State.setTaps (s : State) (a b : BitVec 4) : State :=
  { s with t1 := a, t2 := b }

/-- `G1 <- a; G2 <- b; CHIPCNT <- n`. -/
def State.setGen (s : State) (a b : BitVec 10) (n : BitVec 10) : State :=
  { s with g1 := a, g2 := b, chipcnt := n }

/-- `CVALID <- c; UVALID <- u; DONE <- d`. -/
def State.setValid (s : State) (c u d : Bool) : State :=
  { s with cvalid := c, uvalid := u, done := d }

/-- `SHIFT <- k; ACC <- x`, each at the register's own width (R17, R18). -/
def State.setSum (s : State) (k : Nat) (x : Int) : State :=
  { s with shift := BitVec.ofNat 10 k, acc := narrow (s.width + 10) x }

/-- `DET <- d; NEG <- n; RESULT <- r; DONE <- 1` (R120). -/
def State.setOutcome (s : State) (d n : Bool) (r : Int) : State :=
  { s with det := d, neg := n, result := BitVec.ofInt 16 r, done := true }

/-- Every register and flag to its value of R181, as a hard reset and SRST both do; the memories stay. -/
def State.resetRegisters (s : State) : State :=
  { s with
    g1 := Config.lfsrPreset, g2 := Config.lfsrPreset, t1 := 0, t2 := 0, chipcnt := 0
    shift := 0, acc := 0, result := BitVec.ofInt 16 Config.sentinel
    cvalid := false, uvalid := false, done := false, det := false, neg := false
    err := false, errcode := 0, errwr := false, errval := 0 }

/-- The three memories become unspecified: nothing listed, and new free values (R182). -/
def State.forgetMemories (s : State) : State :=
  { s with chipMem := [], unpkMem := [], sigMem := [], epoch := s.epoch.next }

/-- A hard reset, between two transactions or during one: the state after it is the same (R180, R181, R182, U8). -/
def State.hardReset (s : State) : State :=
  s.resetRegisters.forgetMemories

/-! ### The host's side of the port -/

/-- A read returns `w` to the host (R40). -/
def State.answer (s : State) (w : Word) : State :=
  { s with returned := w :: s.returned }

/-- The host's next actions. -/
def State.setScript (s : State) (acts : List HostAction) : State :=
  { s with script := acts }

/-! ### Error entry and return -/

/-- The code of an error as ERRCODE holds it (R150). -/
def ErrCode.bits : ErrCode → BitVec 4
  | .tapRange => 1
  | .noChips => 2
  | .noUnpk => 3
  | .badCmd => 4
  | .badAccess => 5

/-- Whether a transaction is a write, as ERRWR records it. -/
def Txn.isWrite : Txn → Bool
  | .read _ => false
  | .write _ _ => true

/-- What ERRVAL records of a refused transaction (R157): the data's bits 15:0 for a write to address 0x0000, otherwise the byte
address zero-extended. -/
def Txn.errVal : Txn → BitVec 16
  | .read addr => addr.setWidth 16
  | .write addr data => if addr = 0 then data.setWidth 16 else addr.setWidth 16

/-- Write the four error registers. -/
def State.recordError (s : State) (code : BitVec 4) (wr : Bool) (val : BitVec 16) : State :=
  { s with err := true, errcode := code, errwr := wr, errval := val }

/-- `raise Error(code, info)` for transaction `t` (R157): the first error is recorded, a later one changes nothing (R160). -/
def raiseError (code : ErrCode) (t : Txn) (s : State) : State :=
  if s.err then s else s.recordError code.bits t.isWrite t.errVal

/-- A refused transaction (R157, R158): the error is raised, a read returns 0x00000000, nothing else changes. -/
def refuse (code : ErrCode) (t : Txn) (s : State) : State :=
  match t with
  | .read _ => (raiseError code t s).answer 0
  | .write _ _ => raiseError code t s

/-- The four error registers to 0: the return from an error (R161). -/
def State.clearError (s : State) : State :=
  { s with err := false, errcode := 0, errwr := false, errval := 0 }

/-- The transaction that issues command `i`: a write of its word to CMD (R70, R75). -/
def commandTxn (i : Instr) : Txn :=
  .write 0 (encode i)

end Sys2Proof.Machine
end

