-- ==== Sys2Proof/Machine/Flags.lean ====
section
/-!
DEFINITION. What the flags are computed from: the threshold unit THR, the flags and the result of a search, and the flag changes of the
commands and of a write to SIG (spec/10_state.md R20; spec/42_correlator.md R122, R124, R125).
-/

namespace Sys2Proof.Machine

/-- `Qualifies(a)`: the magnitude is strictly greater than 828 (R122). -/
def qualifies (a : Int) : Bool :=
  decide (Config.threshold < a) || decide (a < -Config.threshold)

/-- NEG of a search that detected with sum `a` (R120, R131). -/
def negFlag (a : Int) : Bool :=
  decide (a < 0)

/-- RESULT of a search that detected at shift `k` with sum `a` (R124). -/
def signedShift (k : Nat) (a : Int) : Int :=
  if 0 ≤ a then (k : Int) else -(k : Int)

/-- A tap index GEN accepts: 1 to 10 (R71, R100). -/
def tapOk (t : Nat) : Bool :=
  decide (Config.tapMin ≤ t) && decide (t ≤ Config.tapMax)

/-- The flags at the end of an accepted GEN (R99). -/
def flagsAfterGen (s : State) : State :=
  s.setValid true false false

/-- The flags at the end of an accepted UNPACK (R110). -/
def flagsAfterUnpack (s : State) : State :=
  s.setValid s.cvalid true false

/-- `UVALID <- 1`, between the two halves of CORR (R128). -/
def flagsInsideCorr (s : State) : State :=
  s.setValid s.cvalid true s.done

/-- `DONE <- 0`, by every accepted write to SIG (R46). -/
def flagsAfterSigWrite (s : State) : State :=
  s.setValid s.cvalid s.uvalid false

/-- A search that found shift `k` to qualify with the sum in ACC (R120, R124). -/
def detected (k : Nat) (s : State) : State :=
  s.setOutcome true (negFlag s.acc) (signedShift k s.acc)

/-- A search in which no shift qualified (R125). -/
def notDetected (s : State) : State :=
  s.setOutcome false false Config.sentinel

end Sys2Proof.Machine
end

