-- ==== Sys2Proof/Machine/Unpacker.lean ====
section
/-!
DEFINITION. The unpacker UNP (spec/41_unpacker.md R110 to R114).
-/

namespace Sys2Proof.Machine

/-- The chip value of a packed bit, 1 - 2*p, as UNPK holds it: 01 for +1, 11 for -1 (R15, R111). -/
def chipValue (p : Bool) : BitVec 2 :=
  BitVec.ofInt 2 (1 - 2 * (p.toNat : Int))

/-- `UnpackAll()`: `UNPK[i] <- 1 - 2*CHIPMEM[i]` for i = 0..1022, in one pass (R111: "the order of i is not observable"). -/
def unpackAll (s : State) : State :=
  s.fillUnpk (s.chipValues.map chipValue)

/-- `UNPACK` (R110): refused with NO_CHIPS when CVALID = 0. -/
def execUnpack (s : State) : Host.Outcome State Fault Refusal :=
  if s.cvalid then .next (flagsAfterUnpack (unpackAll s))
  else .next (refuse .noChips (commandTxn .unpack) s)

end Sys2Proof.Machine
end

