-- ==== Sys2Proof/Machine/Correlator.lean ====
section
/-!
DEFINITION. The correlator COR (spec/42_correlator.md R120 to R136).
-/

namespace Sys2Proof.Machine

/-- The exact sum of the products of samples and chips, pair by pair (R121, R126, R127). -/
def dot : List Int → List (BitVec 2) → Int
  | x :: xs, c :: cs => x * c.toInt + dot xs cs
  | _, _ => 0

/-- The samples in the order SIG[k], SIG[k + 1], ..., wrapping after SIG[1022]: position i holds SIG[(i + k) mod 1023] (R121, R132). -/
def rotated (k : Nat) (xs : List Int) : List Int :=
  xs.drop k ++ xs.take k

/-- `Sum(k)`: the sum over i of SIG[(i + k) mod 1023] * UNPK[i] (R121). -/
@[irreducible] def corrSum (s : State) (k : Nat) : Int :=
  dot (rotated k s.sigValues) s.unpkValues

/-- Evaluate shifts k, k + 1, ..., k + n - 1 in that order and stop at the first that qualifies (R120, R123). -/
def searchFrom : (n k : Nat) → State → State
  | 0, _, s => notDetected s
  | n + 1, k, s =>
    let e := s.setSum k (corrSum s k)
    if qualifies e.acc then detected k e else searchFrom n (k + 1) e

/-- `Search()` (R120). -/
@[irreducible] def search (s : State) : State :=
  searchFrom Config.chips 0 s

/-- `SEARCH` (R120): refused with NO_UNPK when UVALID = 0. -/
def execSearch (s : State) : Host.Outcome State Fault Refusal :=
  if s.uvalid then .next (search s)
  else .next (refuse .noUnpk (commandTxn .search) s)

/-- `CORR` (R128): refused with NO_CHIPS when CVALID = 0; UVALID is not looked at. -/
def execCorr (s : State) : Host.Outcome State Fault Refusal :=
  if s.cvalid then .next (search (flagsInsideCorr (unpackAll s)))
  else .next (refuse .noChips (commandTxn .corr) s)

end Sys2Proof.Machine
end

