-- ==== Sys2Proof/Machine/Generator.lean ====
section
/-!
DEFINITION. The Gold-code generator GEN (spec/40_generator.md R90 to R103).
-/

namespace Sys2Proof.Machine

/-- The XOR result x of one step (R92), from the two registers and the tap indices. -/
def outputBit (g1 g2 : BitVec 10) (t1 t2 : Nat) : Bool :=
  g1.getLsbD 9 ^^ g2.getLsbD (t1 - 1) ^^ g2.getLsbD (t2 - 1)

/-- The packed bit of one step: the inverse of the XOR result (R93). -/
def packedBit (g1 g2 : BitVec 10) (t1 t2 : Nat) : Bool :=
  !outputBit g1 g2 t1 t2

/-- G1's feedback bit (R94). -/
def feedback1 (g : BitVec 10) : Bool :=
  g.getLsbD 9 ^^ g.getLsbD 2

/-- G2's feedback bit (R95). -/
def feedback2 (g : BitVec 10) : Bool :=
  g.getLsbD 1 ^^ g.getLsbD 2 ^^ g.getLsbD 5 ^^ g.getLsbD 7 ^^ g.getLsbD 8 ^^ g.getLsbD 9

/-- Shift left by one, bit 9 lost, the feedback bit in at bit 0 (R96). -/
def shiftIn (g : BitVec 10) (f : Bool) : BitVec 10 :=
  (g <<< 1) ||| BitVec.ofNat 10 f.toNat

/-- G1 after one step (R94, R96). -/
def next1 (g : BitVec 10) : BitVec 10 :=
  shiftIn g (feedback1 g)

/-- G2 after one step (R95, R96). -/
def next2 (g : BitVec 10) : BitVec 10 :=
  shiftIn g (feedback2 g)

/-- `n` steps of one shift register. -/
def stepsOf (next : BitVec 10 → BitVec 10) : Nat → BitVec 10 → BitVec 10
  | 0, g => g
  | n + 1, g => stepsOf next n (next g)

/-- The packed bits of `n` steps from registers g1 and g2, first first (R93, R97). -/
def packedBits (t1 t2 : Nat) : Nat → BitVec 10 → BitVec 10 → List Bool
  | 0, _, _ => []
  | n + 1, g1, g2 => packedBit g1 g2 t1 t2 :: packedBits t1 t2 n (next1 g1) (next2 g2)

/-- `GenStep()` as R97 writes it: all values from the state before the step, then all writes. -/
def genStep (s : State) : State :=
  (s.writeChip s.chipcnt.toNat (packedBit s.g1 s.g2 s.t1.toNat s.t2.toNat)).setGen (next1 s.g1) (next2 s.g2) (s.chipcnt + 1)

/-- `n` generator steps, one after the other. -/
def genSteps : Nat → State → State
  | 0, s => s
  | n + 1, s => genSteps n (genStep s)

/-- `T1 <- t1; T2 <- t2`, the preset (R91) and `CHIPCNT <- 0`: how an accepted GEN begins (R90). -/
def genStart (t1 t2 : Nat) (s : State) : State :=
  (s.setTaps (BitVec.ofNat 4 t1) (BitVec.ofNat 4 t2)).setGen Config.lfsrPreset Config.lfsrPreset 0

/-- An accepted GEN step by step, as the pseudocode of R90 writes it. `generate` does the same in one pass. -/
def generateStepwise (t1 t2 : Nat) (s : State) : State :=
  flagsAfterGen ((genSteps Config.chips (genStart t1 t2 s)).writeChip 1023 false)

/-- `n` generator steps from registers g1 and g2, in one pass: their packed bits written to CHIPMEM[0], CHIPMEM[1], ..., CHIPCNT
counted, both registers advanced; and the pad bit after them (R97, R98). -/
def genRun (n : Nat) (s : State) : State :=
  (s.fillChips (packedBits s.t1.toNat s.t2.toNat n s.g1 s.g2 ++ [false])).setGen
    (stepsOf next1 n s.g1) (stepsOf next2 n s.g2) (s.chipcnt + BitVec.ofNat 10 n)

/-- An accepted GEN (R90): the taps, the preset (R91), 1023 steps and the pad bit (R98), the flags (R99). The steps inside are not
observable (R99), so their writes to CHIPMEM are collected and made in one pass. -/
def generate (t1 t2 : Nat) (s : State) : State :=
  flagsAfterGen (genRun Config.chips (genStart t1 t2 s))

/-- `GEN t1, t2` (R90): refused with TAP_RANGE when a tap is outside 1..10 (R100). -/
def execGen (t1 t2 : Nat) (s : State) : Host.Outcome State Fault Refusal :=
  if tapOk t1 && tapOk t2 then .next (generate t1 t2 s)
  else .next (refuse .tapRange (commandTxn (.gen t1 t2)) s)

end Sys2Proof.Machine
end

