-- ==== Sys2Proof/Machine/Housekeeping.lean ====
section
/-!
DEFINITION. The housekeeping commands (spec/43_system_ops.md R140 to R143).
-/

namespace Sys2Proof.Machine

/-- `NOP` (R140): no state change. -/
def execNop (s : State) : Host.Outcome State Fault Refusal :=
  .next s

/-- `CLRERR` (R141): the error registers to 0. -/
def execClrerr (s : State) : Host.Outcome State Fault Refusal :=
  .next s.clearError

/-- `SRST` (R142): every register and flag to its hard-reset value; the memories keep their content (R183). -/
def execSrst (s : State) : Host.Outcome State Fault Refusal :=
  .next s.resetRegisters

end Sys2Proof.Machine
end

