-- ==== Sys2Proof/Machine/Dispatch.lean ====
section
/-!
DEFINITION. What each command does (spec/30_encoding.md R72): one arm per constructor, one call of its meaning.
-/

namespace Sys2Proof.Machine

/-- The operation command `i` starts, its own checks (R77) included. -/
def exec (i : Instr) (s : State) : Host.Outcome State Fault Refusal :=
  match i with
  | .nop => Sys2Proof.Machine.execNop s
  | .gen t1 t2 => Sys2Proof.Machine.execGen t1 t2 s
  | .unpack => Sys2Proof.Machine.execUnpack s
  | .search => Sys2Proof.Machine.execSearch s
  | .corr => Sys2Proof.Machine.execCorr s
  | .clrerr => Sys2Proof.Machine.execClrerr s
  | .srst => Sys2Proof.Machine.execSrst s

end Sys2Proof.Machine
end

