-- ==== Sys2Proof/Machine/Operands.lean ====
section
/-!
DEFINITION. The operand forms of the host port: the address map (spec/20_memory.md R41), the word each address reads as
(spec/10_state.md R24 to R32; spec/20_memory.md R46 to R48), and the byte lanes of a byte-addressed bus (R43).
-/

namespace Sys2Proof.Machine

/-- What stands at an aligned byte address (R41). -/
inductive Place where
  | cmd
  | status
  | result
  | sum
  | shift
  | genstat
  | lfsr
  | errinfo
  | config
  | chipw (k : Nat)
  | sig (i : Nat)
  | unpk (i : Nat)
  | reserved
  deriving DecidableEq, Repr

/-- Bits 1:0 of the address are 00 (R42). -/
def aligned (addr : Addr) : Bool :=
  addr.toNat % 4 == 0

/-- The address map at byte address `a`, a multiple of 4 (R41). -/
def placeAt (a : Nat) : Place :=
  if a = 0x0000 then .cmd
  else if a = 0x0004 then .status
  else if a = 0x0008 then .result
  else if a = 0x000C then .sum
  else if a = 0x0010 then .shift
  else if a = 0x0014 then .genstat
  else if a = 0x0018 then .lfsr
  else if a = 0x001C then .errinfo
  else if a = 0x0020 then .config
  else if 0x0080 ≤ a ∧ a ≤ 0x00FC then .chipw ((a - 0x0080) / 4)
  else if 0x1000 ≤ a ∧ a ≤ 0x1FF8 then .sig ((a - 0x1000) / 4)
  else if 0x2000 ≤ a ∧ a ≤ 0x2FF8 then .unpk ((a - 0x2000) / 4)
  else .reserved

/-- A one-bit field at bit `n` of a 32-bit word. -/
def flagBit (b : Bool) (n : Nat) : Word :=
  if b then BitVec.ofNat 32 (2 ^ n) else 0

/-- STATUS (R25). -/
def statusWord (s : State) : Word :=
  flagBit s.cvalid 0 ||| flagBit s.uvalid 1 ||| flagBit s.done 2 ||| flagBit s.det 3 ||| flagBit s.neg 4 ||| flagBit s.err 5

/-- RESULT, sign-extended (R26). -/
def resultWord (s : State) : Word :=
  s.result.signExtend 32

/-- SUM: ACC sign-extended (R27). -/
def sumWord (s : State) : Word :=
  pattern32 s.acc

/-- SHIFT, zero-extended (R28). -/
def shiftWord (s : State) : Word :=
  s.shift.setWidth 32

/-- GENSTAT: T1 in 3:0, T2 in 11:8, CHIPCNT in 25:16 (R29). -/
def genstatWord (s : State) : Word :=
  s.t1.setWidth 32 ||| (s.t2.setWidth 32 <<< 8) ||| (s.chipcnt.setWidth 32 <<< 16)

/-- LFSR: G1 in 9:0, G2 in 25:16 (R30). -/
def lfsrWord (s : State) : Word :=
  s.g1.setWidth 32 ||| (s.g2.setWidth 32 <<< 16)

/-- ERRINFO: ERRCODE in 3:0, ERRWR in 4, ERRVAL in 31:16 (R31). -/
def errinfoWord (s : State) : Word :=
  s.errcode.setWidth 32 ||| flagBit s.errwr 4 ||| (s.errval.setWidth 32 <<< 16)

/-- CONFIG: N in 9:0, THRESHOLD in 19:10, W in 25:20 (R32). -/
def configWord (s : State) : Word :=
  BitVec.ofNat 32 (Config.chips + 828 * 0x00000400 + s.width * 0x00100000)

/-- CHIPW[k]: bit b is CHIPMEM[32*k + b] (R47). -/
def chipWord (s : State) (k : Nat) : Word :=
  (List.range 32).foldr (fun b w => w ||| flagBit (s.chipAt (32 * k + b)) b) 0

/-- SIG[i] sign-extended (R46). -/
def sigWord (s : State) (i : Nat) : Word :=
  pattern32 (s.sigAt i)

/-- UNPK[i] sign-extended (R48). -/
def unpkWord (s : State) (i : Nat) : Word :=
  (s.unpkAt i).signExtend 32

/-- The byte that a byte-addressed bus carries at address a + k for the word at a: little-endian lanes (R43). -/
def byteLane (w : Word) (k : Nat) : BitVec 8 :=
  w.extractLsb' (8 * k) 8

end Sys2Proof.Machine
end

