-- ==== Sys2Proof/Machine/HostPort.lean ====
section
/-!
DEFINITION. The host port: what each transaction and each other action of the host does (spec/20_memory.md R40 to R57,
spec/30_encoding.md R77, spec/60_exceptions.md R155).
-/

namespace Sys2Proof.Machine

/-- A write of `word` to CMD starts the command it encodes; a reserved word is refused with BAD_CMD (R24, R73, R77). -/
def writeCmd (word : Word) (s : State) : Host.Outcome State Fault Refusal :=
  match decode word with
  | .ok i => exec i s
  | .error _ => .next (refuse .badCmd (.write 0 word) s)

/-- A read at an aligned address (R41, R44, R45, R46, R47, R48). -/
def readPlace (p : Place) (t : Txn) (s : State) : State :=
  match p with
  | .cmd => refuse .badAccess t s
  | .status => s.answer (statusWord s)
  | .result => s.answer (resultWord s)
  | .sum => s.answer (sumWord s)
  | .shift => s.answer (shiftWord s)
  | .genstat => s.answer (genstatWord s)
  | .lfsr => s.answer (lfsrWord s)
  | .errinfo => s.answer (errinfoWord s)
  | .config => s.answer (configWord s)
  | .chipw k => if s.cvalid then s.answer (chipWord s k) else refuse .noChips t s
  | .sig i => s.answer (sigWord s i)
  | .unpk i => if s.uvalid then s.answer (unpkWord s i) else refuse .noUnpk t s
  | .reserved => refuse .badAccess t s

/-- A write at an aligned address: CMD starts an operation, SIG stores a sample and clears DONE, everything else is refused (R41, R44,
R45, R46). -/
def writePlace (p : Place) (t : Txn) (data : Word) (s : State) : Host.Outcome State Fault Refusal :=
  match p with
  | .cmd => writeCmd data s
  | .sig i => .next (flagsAfterSigWrite (s.writeSig i data))
  | .status | .result | .sum | .shift | .genstat | .lfsr | .errinfo | .config | .chipw _ | .unpk _ | .reserved =>
    .next (refuse .badAccess t s)

/-- One transaction, its checks in the order of R57: alignment first, then the address and the access kind, then the guards. -/
def transact (t : Txn) (s : State) : Host.Outcome State Fault Refusal :=
  match t with
  | .read addr =>
    if aligned addr then .next (readPlace (placeAt addr.toNat) t s) else .next (refuse .badAccess t s)
  | .write addr data =>
    if aligned addr then writePlace (placeAt addr.toNat) t data s else .next (refuse .badAccess t s)

/-- One action of the host, taken to its end (R40, R56). -/
def hostAct (a : HostAction) (s : State) : Host.Outcome State Fault Refusal :=
  match a with
  | .transact t => transact t s
  | .subword t => .next (refuse .badAccess t s)
  | .hardReset _ => .next s.hardReset
  | .overlap _ _ => .fault .overlappingTransactions

/-- The host's next action is taken from its script; with none left the block holds its state and waits (R169, R184, R195). -/
def nextAction (s : State) : Host.Outcome State Fault Refusal :=
  match s.script with
  | [] => .next s
  | a :: rest => hostAct a (s.setScript rest)

/-- Put the write of a command word first in the host's script. -/
def issueFirst (s : State) (word : Word) : State :=
  s.setScript (.transact (.write 0 word) :: s.script)

end Sys2Proof.Machine
end

