-- ==== Sys2Proof/Machine/Step.lean ====
section
/-!
DEFINITION. One step of the machine: one action of the host, from its first state change to its last (spec/20_memory.md R40, R50).
-/

namespace Sys2Proof.Machine

/-- One step: the block fetches nothing (R22, R52), so a step is the next action of the host's script. -/
def step (s : State) : Host.Outcome State Fault Refusal :=
  nextAction s

/-- `s` with the host about to write the command word `w` of `nbits` bits to CMD (notes/assumptions/3.md); the rest of the script
follows it. -/
def State.withFetchWord (s : State) (nbits w : Nat) : State :=
  issueFirst s (BitVec.ofNat 32 (w % 2 ^ nbits))

end Sys2Proof.Machine
end

