-- ==== Sys2Proof/Machine/Instances.lean ====
section
/-!
DEFINITION. A system of N_INSTANCES copies of GC-CORE, each with its own complete state and its own port (spec/20_memory.md R58,
spec/60_exceptions.md R167).
-/

namespace Sys2Proof.Machine

/-- One step of instance `k` (the unwritten elements of two instances are unrelated when their serial numbers differ,
notes/assumptions/13.md); the others keep their state. A number that no instance has does nothing. -/
def stepInstance (k : Nat) (sys : List State) : Host.Outcome (List State) Fault Refusal :=
  match sys[k]? with
  | none => .next sys
  | some s =>
    match step s with
    | .next t => .next (sys.set k t)
    | .fault r => .fault r
    | .refused r => .refused r

end Sys2Proof.Machine
end

