-- ==== Sys2Proof/Machine/Script.lean ====
section
/-!
DEFINITION. The script notation and its pseudo-instructions, each as the host actions it stands for (spec/30_encoding.md R75, R76).
-/

namespace Sys2Proof.Machine

/-- `WR addr, data` (R75). -/
def scriptWr (addr : Addr) (data : Word) : HostAction :=
  .transact (.write addr data)

/-- `RD addr` (R75). -/
def scriptRd (addr : Addr) : HostAction :=
  .transact (.read addr)

/-- A command line: `NOP`, `GEN t1, t2`, `UNPACK`, `SEARCH`, `CORR`, `CLRERR`, `SRST` (R75). -/
def scriptCommand (i : Instr) : HostAction :=
  .transact (commandTxn i)

/-- `LDSIG i, x` (R76). -/
def ldsig (i : Nat) (x : Int) : HostAction :=
  scriptWr (BitVec.ofNat 14 (0x1000 + 4 * i)) (pattern32 x)

/-- `RDSIG i` (R76). -/
def rdsig (i : Nat) : HostAction :=
  scriptRd (BitVec.ofNat 14 (0x1000 + 4 * i))

/-- `LDSIG i, v0`, `LDSIG i + 1, v1`, ... -/
def ldsigFrom : Nat → List Int → List HostAction
  | _, [] => []
  | i, x :: xs => ldsig i x :: ldsigFrom (i + 1) xs

/-- `LDSIGV v` (R76). -/
def ldsigv (v : List Int) : List HostAction :=
  ldsigFrom 0 v

/-- `RDCHIPW k` (R76). -/
def rdchipw (k : Nat) : HostAction :=
  scriptRd (BitVec.ofNat 14 (0x0080 + 4 * k))

/-- `RDUNPK i` (R76). -/
def rdunpk (i : Nat) : HostAction :=
  scriptRd (BitVec.ofNat 14 (0x2000 + 4 * i))

/-- `RDSTAT` (R76). -/
def rdstat : HostAction :=
  scriptRd 0x0004

/-- `RDRES` (R76). -/
def rdres : HostAction :=
  scriptRd 0x0008

/-- `RDSUM` (R76). -/
def rdsum : HostAction :=
  scriptRd 0x000C

/-- `RDSHIFT` (R76). -/
def rdshift : HostAction :=
  scriptRd 0x0010

/-- `RDGEN` (R76). -/
def rdgen : HostAction :=
  scriptRd 0x0014

/-- `RDLFSR` (R76). -/
def rdlfsr : HostAction :=
  scriptRd 0x0018

/-- `RDERR` (R76). -/
def rderr : HostAction :=
  scriptRd 0x001C

/-- `RDCFG` (R76). -/
def rdcfg : HostAction :=
  scriptRd 0x0020

/-- `GENERATE t1, t2`, the source's `generate` (R76). -/
def generateScript (t1 t2 : Nat) : List HostAction :=
  scriptCommand (.gen t1 t2) :: rdstat :: (List.range 32).map rdchipw

/-- `CORRELATE v`, the source's `correlate` (R76). -/
def correlateScript (v : List Int) : List HostAction :=
  ldsigv v ++ [scriptCommand .corr, rdstat, rdres]

/-- `ACQUIRE t1, t2`, one satellite of the host's loop (R76). -/
def acquireScript (t1 t2 : Nat) : List HostAction :=
  [scriptCommand (.gen t1 t2), scriptCommand .corr, rdstat, rdres]

end Sys2Proof.Machine
end

