-- ==== Sys2Proof/Safety.lean ====
section
/-!
DEFINITION. The terms in which claims about GC-CORE are stated: when a transaction is refused (spec/60_exceptions.md R150 to R159), the
Gold sequence and the correlation sum as formulas (spec/40_generator.md R92, R93; spec/42_correlator.md R121), the invariants of
spec/10_state.md R34, and a run (spec/70_reset_and_hazards.md R195). No step reads anything of this file.
-/

namespace Sys2Proof.Safety

open Sys2Proof.Machine

/-! ### When a transaction is refused -/

/-- An address that no read may name: misaligned, CMD, or a reserved row of R41 (R42, R44, R45). -/
def unreadable (a : Nat) : Bool :=
  a % 4 != 0 || a == 0 || (decide (0x24 ≤ a) && decide (a < 0x80)) || (decide (0x100 ≤ a) && decide (a < 0x1000)) ||
    (decide (0x1FFC ≤ a) && decide (a < 0x2000)) || decide (0x2FFC ≤ a)

/-- An address that a write may name: CMD, or a slot of the SIG window (R41, R45). -/
def writable (a : Nat) : Bool :=
  a % 4 == 0 && (a == 0 || (decide (0x1000 ≤ a) && decide (a ≤ 0x1FF8)))

/-- The error of a command that its own check refuses (R77, second check). -/
def commandRefusal (s : State) : Instr → Option ErrCode
  | .gen t1 t2 => if 1 ≤ t1 ∧ t1 ≤ 10 ∧ 1 ≤ t2 ∧ t2 ≤ 10 then none else some .tapRange
  | .unpack => if s.cvalid then none else some .noChips
  | .corr => if s.cvalid then none else some .noChips
  | .search => if s.uvalid then none else some .noUnpk
  | .nop | .clrerr | .srst => none

/-- The error with which a transaction is refused, `none` when it is accepted: the checks of R57 and R77 in their order. -/
def refusalOf (s : State) : Txn → Option ErrCode
  | .read addr =>
    if unreadable addr.toNat then some .badAccess
    else if 0x80 ≤ addr.toNat ∧ addr.toNat < 0x100 ∧ s.cvalid = false then some .noChips
    else if 0x2000 ≤ addr.toNat ∧ s.uvalid = false then some .noUnpk
    else none
  | .write addr data =>
    if writable addr.toNat = false then some .badAccess
    else if addr = 0 then
      match decode data with
      | .ok i => commandRefusal s i
      | .error _ => some .badCmd
    else none

/-- The state after transaction `t` was refused with error `c` (R157, R158, R160): the error registers, unless they hold an earlier
error, and 0x00000000 returned for a read; everything else as it was. -/
def refusedState (s : State) (c : ErrCode) (t : Txn) : State :=
  { s with
    err := true
    errcode := if s.err then s.errcode else c.bits
    errwr := if s.err then s.errwr else t.isWrite
    errval := if s.err then s.errval else t.errVal
    returned := if t.isWrite then s.returned else 0 :: s.returned }

/-- The state after an error with code `code`, ERRWR `wr` and ERRVAL `val`, in numbers: recorded if ERR was 0, nothing changed if an
earlier error is held (R150, R157, R160). -/
def errorState (s : State) (code : BitVec 4) (wr : Bool) (val : BitVec 16) : State :=
  if s.err then s else { s with err := true, errcode := code, errwr := wr, errval := val }

/-- The host action writes to CMD a word that encodes command `i`. -/
def Issues (a : HostAction) (i : Instr) : Prop :=
  ∃ w, a = .transact (.write 0 w) ∧ decode w = .ok i

/-- The host action is an accepted write to SIG (R46). -/
def WritesSig (a : HostAction) : Prop :=
  ∃ i v, i < 1023 ∧ a = .transact (.write (BitVec.ofNat 14 (0x1000 + 4 * i)) v)

/-- The host action is a hard reset, between transactions or during one (R180). -/
def Resets (a : HostAction) : Prop :=
  ∃ during, a = .hardReset during

/-! ### The sequence and the sum as formulas -/

/-- The packed bit of chip k for tap pair (t1, t2): the inverse of the XOR result after k steps from the preset (R91 to R97). -/
def goldBit (t1 t2 k : Nat) : Bool :=
  packedBit (stepsOf next1 k Config.lfsrPreset) (stepsOf next2 k Config.lfsrPreset) t1 t2

/-- Sum(k) of R121, as the formula the source gives. -/
def formulaSum (s : State) (k : Nat) : Int :=
  ∑ i ∈ Finset.range 1023, s.sigAt ((i + k) % 1023) * (s.unpkAt i).toInt

/-- The magnitude of an integer exceeds the threshold (R122). -/
def Exceeds (a : Int) : Prop :=
  828 < |a|

/-! ### Invariants -/

/-- The three memories are in canonical form. -/
def MemWf (s : State) : Prop :=
  Mem.wf 1024 s.chipMem = true ∧ Mem.wf 1023 s.unpkMem = true ∧ Mem.wf 1023 s.sigMem = true

/-- `x` is the value of some n-bit two's complement register. -/
def Fits (n : Nat) (x : Int) : Prop :=
  -(2 ^ (n - 1)) ≤ x ∧ x < 2 ^ (n - 1)

/-- Every sample is a W-bit integer (R16). -/
def SamplesFit (s : State) : Prop :=
  ∀ i, Fits s.width (s.sigAt i)

/-- Every unpacked chip is +1 or -1 (R15). -/
def ChipsAreUnits (s : State) : Prop :=
  ∀ i, i < 1023 → (s.unpkAt i).toInt = 1 ∨ (s.unpkAt i).toInt = -1

/-- What holds after every completed transaction (R34, whose items the fields name), with the canonical form of the memories, the
widths of samples and ACC (which never holds the most negative value of its width, R126), and the error registers' own agreement (R21,
R150, U6). -/
structure Inv (s : State) : Prop where
  memWf : MemWf s
  samplesFit : SamplesFit s
  accFits : -(2 ^ (s.width + 9)) < s.acc ∧ s.acc < 2 ^ (s.width + 9)
  lfsrAtPreset : s.g1 = 0x3FF ∧ s.g2 = 0x3FF
  chipsOfTaps : s.cvalid = true →
    (1 ≤ s.t1.toNat ∧ s.t1.toNat ≤ 10) ∧ (1 ≤ s.t2.toNat ∧ s.t2.toNat ≤ 10) ∧ s.chipcnt.toNat = 1023 ∧
      s.chipAt 1023 = false ∧ ∀ k, k < 1023 → s.chipAt k = goldBit s.t1.toNat s.t2.toNat k
  unpackedHasChips : s.uvalid = true → s.cvalid = true
  unpackedMatches : s.uvalid = true → ∀ i, i < 1023 → (s.unpkAt i).toInt = 1 - 2 * ((s.chipAt i).toNat : Int)
  doneHasUnpacked : s.done = true → s.uvalid = true
  doneIsCurrent : s.done = true → search s = s
  notDetected : s.done = true → s.det = false → s.result.toInt = 10000 ∧ s.neg = false ∧ s.shift.toNat = 1022
  detected : s.done = true → s.det = true →
    Exceeds s.acc ∧ s.result.toInt.natAbs = s.shift.toNat ∧ (s.neg = true ↔ s.acc < 0) ∧
      s.result.toInt = if s.neg then -(s.shift.toNat : Int) else (s.shift.toNat : Int)
  chipcntAtEnds : s.chipcnt.toNat = 0 ∨ s.chipcnt.toNat = 1023
  shiftInRange : s.shift.toNat ≤ 1022
  resultInRange : (-1022 ≤ s.result.toInt ∧ s.result.toInt ≤ 1022) ∨ s.result.toInt = 10000
  noErrorRegisters : s.err = false → s.errcode = 0 ∧ s.errwr = false ∧ s.errval = 0
  errorCode : s.err = true → 1 ≤ s.errcode.toNat ∧ s.errcode.toNat ≤ 5

/-! ### Runs -/

/-- A run: the host's actions applied in order to a start state (R195). -/
def run (acts : List HostAction) (s : State) : Host.Outcome State Fault Refusal :=
  Host.Core.run core acts.length (s.setScript acts)

/-- The host action is refused in state `s`: a transaction that a check refuses, or a byte or half-word transaction (R42, R57). -/
def Refused (s : State) : HostAction → Prop
  | .transact t => ∃ c, refusalOf s t = some c
  | .subword _ => True
  | .hardReset _ => False
  | .overlap _ _ => False

/-- A good run (R195): it runs to its end, and no transaction of it was refused in the state in which it was issued. -/
def Good : List HostAction → State → Prop
  | [], _ => True
  | a :: rest, s => ¬Refused s a ∧ ∃ t, step (s.setScript (a :: rest)) = .next t ∧ Good rest t

end Sys2Proof.Safety
end

