-- ==== Sys2Proof/Certificates/Slice0/Obligations.lean ====
section
/-!
DEFINITION. What the provers are asked to settle about the model of GC-CORE. Each statement's docstring names the rule of spec/ it
formalises; OBLIGATIONS.json lists them.
-/

open Sys2Proof Sys2Proof.Machine Sys2Proof.Safety

/-! ### Encoding -/

/-- Decoding the word of a well-formed command gives the command back, with both taps of GEN at every value their fields hold
(R70, R71, R72). -/
def Obligations.CommandEncodingRoundTrip : Prop :=
  ∀ i : Instr, i.WellFormed → decode (encode i) = .ok i

/-- A word that decodes is the word of the command it decodes to, and that command is well formed: no word has two spellings
(R70, R72). -/
def Obligations.DecodedWordReencodes : Prop :=
  ∀ (w : Word) (i : Instr), decode w = .ok i → i.WellFormed ∧ encode i = w

/-- The decoder is the opcode map: a word encodes a command exactly when w & mask = match, and GEN's operands are its fields A and B
(R71, R72). -/
def Obligations.DecodeFollowsOpcodeMap : Prop :=
  ∀ w : Word,
    (decode w = .ok .nop ↔ w &&& 0xFFFFFFFF = 0x00000000) ∧
    ((∃ t1 t2, decode w = .ok (.gen t1 t2)) ↔ w &&& 0xFFFFF00F = 0x00001000) ∧
    (decode w = .ok .unpack ↔ w &&& 0xFFFFFFFF = 0x00002000) ∧
    (decode w = .ok .search ↔ w &&& 0xFFFFFFFF = 0x00003000) ∧
    (decode w = .ok .corr ↔ w &&& 0xFFFFFFFF = 0x00004000) ∧
    (decode w = .ok .clrerr ↔ w &&& 0xFFFFFFFF = 0x00005000) ∧
    (decode w = .ok .srst ↔ w &&& 0xFFFFFFFF = 0x00006000) ∧
    ∀ t1 t2, decode w = .ok (.gen t1 t2) → t1 = (w.extractLsb' 8 4).toNat ∧ t2 = (w.extractLsb' 4 4).toNat

/-- Words written out from R70 and R72 decode to the commands they stand for. -/
def Obligations.SampleWordsDecode : Prop :=
  decode 0x00000000 = .ok .nop ∧ decode 0x00001260 = .ok (.gen 2 6) ∧ decode 0x00001AA0 = .ok (.gen 10 10) ∧
  decode 0x00002000 = .ok .unpack ∧ decode 0x00003000 = .ok .search ∧ decode 0x00004000 = .ok .corr ∧
  decode 0x00005000 = .ok .clrerr ∧ decode 0x00006000 = .ok .srst

/-! ### Steps -/

/-- A step whose next action writes the word of a command to CMD is exec of that command, on the state without the action
(R24, R50). -/
def Obligations.StepRunsDecodedCommand : Prop :=
  ∀ (s : State) (w : Word) (i : Instr) (rest : List HostAction),
    s.script = .transact (.write 0 w) :: rest → decode w = .ok i → step s = exec i (s.setScript rest)

/-- With no action left the block holds its state (R169, R184). -/
def Obligations.IdleStepHoldsState : Prop :=
  ∀ s : State, s.script = [] → step s = .next s

/-- Every host action inside the contract of R56 completes, and only it leaves the script (R40, R50, R196). -/
def Obligations.EveryActionCompletes : Prop :=
  ∀ (s : State) (a : HostAction) (rest : List HostAction), s.script = a :: rest → (∀ t u, a ≠ .overlap t u) →
    ∃ t, step s = .next t ∧ t.script = rest

/-- Overlapping transactions are outside the contract and stop the model (R56; spec/93_implementation_defined.md U9). -/
def Obligations.OverlapStops : Prop :=
  ∀ (s : State) (t u : Txn) (rest : List HostAction), s.script = .overlap t u :: rest → step s = .fault .overlappingTransactions

/-! ### Errors -/

/-- A transaction that a check refuses records the error, unless one is held, returns 0 if it is a read, and changes nothing else
(R157, R160; which check refuses it: R57, R77, R159). -/
def Obligations.RefusedTransactionRecordsError : Prop :=
  ∀ (s : State) (t : Txn) (c : ErrCode), refusalOf s t = some c → transact t s = .next (refusedState s c t)

/-- An accepted transaction: the words of CLRERR and SRST clear the four error registers, every other one leaves them alone
(R158, R161). -/
def Obligations.AcceptedTransactionRaisesNothing : Prop :=
  ∀ (s u : State) (t : Txn), refusalOf s t = none → transact t s = .next u →
    if t = .write 0 0x00005000 ∨ t = .write 0 0x00006000 then
      u.err = false ∧ u.errcode = 0 ∧ u.errwr = false ∧ u.errval = 0
    else u.err = s.err ∧ u.errcode = s.errcode ∧ u.errwr = s.errwr ∧ u.errval = s.errval

/-- While ERR = 1 every transaction is checked and executed exactly as with ERR = 0: from two states that differ in the error registers
only, a transaction meets the same check and leaves states that differ in the error registers only, and a read returns the same word
but for the two views that show those registers (R162). -/
def Obligations.ErrorsGateNothing : Prop :=
  ∀ (s s' : State) (t : Txn), s.clearError = s'.clearError →
    refusalOf s t = refusalOf s' t ∧
    ∃ u u', transact t s = .next u ∧ transact t s' = .next u' ∧
      ({ u.clearError with returned := [] } : State) = { u'.clearError with returned := [] } ∧
      (t ≠ .read 0x0004 → t ≠ .read 0x001C → u.returned = u'.returned)

/-- BAD_ACCESS: a misaligned or reserved address, a write to a read-only place, a read of CMD (R155). -/
def Obligations.BadAccessRefused : Prop :=
  ∀ (s : State) (addr : Addr),
    (unreadable addr.toNat = true →
      transact (.read addr) s = .next ((errorState s 5 false (addr.setWidth 16)).answer 0)) ∧
    (writable addr.toNat = false →
      ∀ data, transact (.write addr data) s = .next (errorState s 5 true (addr.setWidth 16)))

/-- BAD_CMD: a write to CMD of a word that matches no row of the opcode map starts no operation (R154). -/
def Obligations.ReservedWordIsBadCmd : Prop :=
  ∀ (s : State) (w : Word),
    w ∉ [0x00000000, 0x00002000, 0x00003000, 0x00004000, 0x00005000, 0x00006000] → w &&& 0xFFFFF00F ≠ 0x00001000 →
    transact (.write 0 w) s = .next (errorState s 4 true (w.setWidth 16))

/-- TAP_RANGE: a GEN word with a field 0 or 11..15 does not run (R151). -/
def Obligations.TapRangeRefused : Prop :=
  ∀ (s : State) (w : Word), w &&& 0xFFFFF00F = 0x00001000 →
    ((w.extractLsb' 8 4).toNat ∉ Finset.Icc 1 10 ∨ (w.extractLsb' 4 4).toNat ∉ Finset.Icc 1 10) →
    transact (.write 0 w) s = .next (errorState s 1 true (w.setWidth 16))

/-- NO_CHIPS: UNPACK, CORR and reads of the CHIPW window while CVALID = 0 (R152). -/
def Obligations.NoChipsRefused : Prop :=
  ∀ s : State, s.cvalid = false →
    exec .unpack s = .next (errorState s 2 true 0x2000) ∧
    exec .corr s = .next (errorState s 2 true 0x4000) ∧
    ∀ k, k < 32 → transact (.read (BitVec.ofNat 14 (0x0080 + 4 * k))) s =
      .next ((errorState s 2 false (BitVec.ofNat 16 (0x0080 + 4 * k))).answer 0)

/-- NO_UNPK: SEARCH and reads of the UNPK window while UVALID = 0 (R153). -/
def Obligations.NoUnpkRefused : Prop :=
  ∀ s : State, s.uvalid = false →
    exec .search s = .next (errorState s 3 true 0x3000) ∧
    ∀ i, i < 1023 → transact (.read (BitVec.ofNat 14 (0x2000 + 4 * i))) s =
      .next ((errorState s 3 false (BitVec.ofNat 16 (0x2000 + 4 * i))).answer 0)

/-- A byte or half-word transaction is refused with BAD_ACCESS (R42; what ERRVAL then holds is the model's reading of R157,
notes/assumptions/6.md). -/
def Obligations.SubwordRefused : Prop :=
  ∀ (s : State) (t : Txn), hostAct (.subword t) s = .next (refusedState s .badAccess t)

/-! ### Reads and writes of the port -/

/-- An accepted read changes nothing but what the host got, and a second read of the same address returns the same word (R49). -/
def Obligations.ReadHasNoSideEffect : Prop :=
  ∀ (s : State) (addr : Addr), refusalOf s (.read addr) = none →
    ∃ w, transact (.read addr) s = .next { s with returned := w :: s.returned } ∧
      transact (.read addr) { s with returned := w :: s.returned } = .next { s with returned := w :: w :: s.returned }

/-- STATUS: each flag at its bit, the other bits 0; 0 after a hard reset; read-only (R25). -/
def Obligations.StatusViewShowsFlags : Prop :=
  (∀ s : State, ∃ w : Word, transact (.read 0x0004) s = .next (s.answer w) ∧
    w.getLsbD 0 = s.cvalid ∧ w.getLsbD 1 = s.uvalid ∧ w.getLsbD 2 = s.done ∧ w.getLsbD 3 = s.det ∧ w.getLsbD 4 = s.neg ∧
    w.getLsbD 5 = s.err ∧ ∀ n, 6 ≤ n → w.getLsbD n = false) ∧
  transact (.read 0x0004) State.reset = .next (State.reset.answer 0x00000000) ∧
  ∀ (s : State) (v : Word), transact (.write 0x0004 v) s = .next (errorState s 5 true 0x0004)

/-- RESULT and SUM read as the integers the two registers hold (R26, R27); ACC within its width. -/
def Obligations.ResultAndSumViews : Prop :=
  ∀ s : State,
    (∃ w : Word, transact (.read 0x0008) s = .next (s.answer w) ∧ w.toInt = s.result.toInt) ∧
    (Fits (s.width + 10) s.acc → ∃ w : Word, transact (.read 0x000C) s = .next (s.answer w) ∧ w.toInt = s.acc)

/-- SHIFT, GENSTAT, LFSR and ERRINFO: each field in its place, reserved bits 0 (R28, R29, R30, R31). -/
def Obligations.RegisterViewFields : Prop :=
  ∀ s : State,
    (∃ w : Word, transact (.read 0x0010) s = .next (s.answer w) ∧
      w.extractLsb' 0 10 = s.shift ∧ w.extractLsb' 10 22 = 0) ∧
    (∃ w : Word, transact (.read 0x0014) s = .next (s.answer w) ∧
      w.extractLsb' 0 4 = s.t1 ∧ w.extractLsb' 4 4 = 0 ∧ w.extractLsb' 8 4 = s.t2 ∧ w.extractLsb' 12 4 = 0 ∧
      w.extractLsb' 16 10 = s.chipcnt ∧ w.extractLsb' 26 6 = 0) ∧
    (∃ w : Word, transact (.read 0x0018) s = .next (s.answer w) ∧
      w.extractLsb' 0 10 = s.g1 ∧ w.extractLsb' 10 6 = 0 ∧ w.extractLsb' 16 10 = s.g2 ∧ w.extractLsb' 26 6 = 0) ∧
    (∃ w : Word, transact (.read 0x001C) s = .next (s.answer w) ∧
      w.extractLsb' 0 4 = s.errcode ∧ w.getLsbD 4 = s.errwr ∧ w.extractLsb' 5 11 = 0 ∧ w.extractLsb' 16 16 = s.errval)

/-- CONFIG: a constant of the instance, N, THRESHOLD and W in their fields, read-only (R32). -/
def Obligations.ConfigViewHoldsConstants : Prop :=
  ∀ s : State,
    (∃ w : Word, transact (.read 0x0020) s = .next (s.answer w) ∧
      w.toNat = 0x000CF3FF + s.width * 0x00100000 ∧ (w.extractLsb' 0 10).toNat = 1023 ∧ (w.extractLsb' 10 10).toNat = 828 ∧
      (w.extractLsb' 20 6).toNat = s.width ∧ (w.extractLsb' 26 6).toNat = 0) ∧
    ∀ v : Word, transact (.write 0x0020 v) s = .next (errorState s 5 true 0x0020)

/-- The CHIPW window while CVALID = 1: chip 32*k + b is bit b of word k (R47). -/
def Obligations.ChipWindowReads : Prop :=
  ∀ (s : State) (k : Nat), s.cvalid = true → k < 32 →
    ∃ w : Word, transact (.read (BitVec.ofNat 14 (0x0080 + 4 * k))) s = .next (s.answer w) ∧
      ∀ b, b < 32 → w.getLsbD b = s.chipAt (32 * k + b)

/-- The UNPK window while UVALID = 1: element i sign-extended (R48). -/
def Obligations.UnpkWindowReads : Prop :=
  ∀ (s : State) (i : Nat), s.uvalid = true → i < 1023 →
    ∃ w : Word, transact (.read (BitVec.ofNat 14 (0x2000 + 4 * i))) s = .next (s.answer w) ∧ w.toInt = (s.unpkAt i).toInt

/-- The SIG window: a write stores the low W bits of the word as a signed sample, clears DONE and changes nothing else, so that a sample
within W bits is stored as it is; a read returns the sample (R46). -/
def Obligations.SigWindow : Prop :=
  ∀ (s : State) (i : Nat) (v : Word), i < 1023 →
    (∃ t, transact (.write (BitVec.ofNat 14 (0x1000 + 4 * i)) v) s = .next t ∧
      t = { s with sigMem := t.sigMem, done := false } ∧ t.sigAt i = (v.setWidth s.width).toInt ∧
      (Fits s.width v.toInt → t.sigAt i = v.toInt) ∧ ∀ j, j ≠ i → t.sigAt j = s.sigAt j) ∧
    ∃ w : Word, transact (.read (BitVec.ofNat 14 (0x1000 + 4 * i))) s = .next (s.answer w) ∧ (SamplesFit s → w.toInt = s.sigAt i)

/-- A sample loaded by LDSIG is what RDSIG then returns, sign-extended (R46, R76). -/
def Obligations.LdsigThenRdsigReturnsSample : Prop :=
  ∀ (s : State) (i : Nat) (x : Int), i < 1023 → Fits s.width x →
    ∃ t, run [ldsig i x, rdsig i] s = .next t ∧ t.returned = BitVec.ofInt 32 x :: s.returned

/-! ### Housekeeping -/

/-- NOP changes nothing (R140). -/
def Obligations.NopChangesNothing : Prop :=
  ∀ s : State, exec .nop s = .next s

/-- CLRERR clears the four error registers and changes nothing else (R141, R161). -/
def Obligations.ClrerrClearsErrorRegisters : Prop :=
  ∀ s : State, exec .clrerr s = .next { s with err := false, errcode := 0, errwr := false, errval := 0 }

/-- SRST gives every register and flag its reset value and keeps the memories (R142). -/
def Obligations.SrstResetsRegisters : Prop :=
  ∀ s : State, exec .srst s = .next
    { s with
      g1 := 0x3FF, g2 := 0x3FF, t1 := 0, t2 := 0, chipcnt := 0, shift := 0, acc := 0, result := 10000
      cvalid := false, uvalid := false, done := false, det := false, neg := false
      err := false, errcode := 0, errwr := false, errval := 0 }

/-! ### The generator -/

/-- An accepted GEN completes: CHIPMEM holds the Gold sequence of the tap pair and the pad bit, CHIPCNT is 1023, the flags are those of
R99, and nothing else but T1, T2, G1 and G2 changes (R90, R97, R98, R99). -/
def Obligations.GenWritesGoldSequence : Prop :=
  ∀ (s : State) (t1 t2 : Nat), 1 ≤ t1 → t1 ≤ 10 → 1 ≤ t2 → t2 ≤ 10 →
    ∃ t, exec (.gen t1 t2) s = .next t ∧
      (∀ k, k < 1023 → t.chipAt k = goldBit t1 t2 k) ∧ t.chipAt 1023 = false ∧
      (∀ k, 1024 ≤ k → t.chipAt k = s.chipAt k) ∧
      t = { s with
        t1 := BitVec.ofNat 4 t1, t2 := BitVec.ofNat 4 t2, g1 := t.g1, g2 := t.g2, chipcnt := 1023
        chipMem := t.chipMem, cvalid := true, uvalid := false, done := false }

/-- The one-pass GEN of the model is the pseudocode of R90, step by step (R90, R97). -/
def Obligations.GenOnePassIsStepwise : Prop :=
  ∀ (s : State) (t1 t2 : Nat), MemWf s → 1 ≤ t1 → t1 ≤ 10 → 1 ≤ t2 → t2 ≤ 10 →
    exec (.gen t1 t2) s = .next (generateStepwise t1 t2 s)

/-- Each shift register, from all ones, visits 1023 distinct non-zero states and is at all ones again after 1023 steps and not before;
so the LFSR view reads 0x03FF03FF after every accepted GEN (R101, which the spec marks as derived by evaluating the steps). -/
def Obligations.LfsrPeriodIs1023 : Prop :=
  (∀ next, next = next1 ∨ next = next2 →
    stepsOf next 1023 0x3FF = 0x3FF ∧ (∀ n, 0 < n → n < 1023 → stepsOf next n 0x3FF ≠ 0x3FF) ∧
    (∀ n, n < 1023 → stepsOf next n 0x3FF ≠ 0) ∧
    ∀ m n, m < 1023 → n < 1023 → stepsOf next m 0x3FF = stepsOf next n 0x3FF → m = n) ∧
  ∀ (s : State) (t1 t2 : Nat), 1 ≤ t1 → t1 ≤ 10 → 1 ≤ t2 → t2 ≤ 10 →
    ∃ t, exec (.gen t1 t2) s = .next t ∧ t.g1 = 0x3FF ∧ t.g2 = 0x3FF ∧
      transact (.read 0x0018) t = .next (t.answer 0x03FF03FF)

/-- GEN's sequence depends on the tap pair only (R90; R102 item 1, an inference the spec marks as its own). -/
def Obligations.GenDependsOnTapsOnly : Prop :=
  ∀ (s s' : State) (t1 t2 : Nat), 1 ≤ t1 → t1 ≤ 10 → 1 ≤ t2 → t2 ≤ 10 →
    ∃ t t', exec (.gen t1 t2) s = .next t ∧ exec (.gen t1 t2) s' = .next t' ∧
      (∀ k, k < 1024 → t.chipAt k = t'.chipAt k) ∧
      t.g1 = t'.g1 ∧ t.g2 = t'.g2 ∧ t.t1 = t'.t1 ∧ t.t2 = t'.t2 ∧ t.chipcnt = t'.chipcnt

/-- The order of the taps does not matter to the sequence, and equal taps give the G1 sequence alone (R92; R102 items 2 and 3,
inferences the spec marks as its own). -/
def Obligations.TapOrderAndEqualTaps : Prop :=
  (∀ (s : State) (t1 t2 : Nat), 1 ≤ t1 → t1 ≤ 10 → 1 ≤ t2 → t2 ≤ 10 →
    ∃ t t', exec (.gen t1 t2) s = .next t ∧ exec (.gen t2 t1) s = .next t' ∧ t.chipMem = t'.chipMem) ∧
  ∀ (s : State) (t1 : Nat), 1 ≤ t1 → t1 ≤ 10 →
    ∃ t, exec (.gen t1 t1) s = .next t ∧ ∀ k, k < 1023 → t.chipAt k = !(stepsOf next1 k 0x3FF).getLsbD 9

/-! ### The unpacker -/

/-- An accepted UNPACK completes: UNPK[i] = 1 - 2*CHIPMEM[i] for i = 0..1022, UVALID set, DONE cleared, nothing else changed
(R110, R111, R112). -/
def Obligations.UnpackExpandsChips : Prop :=
  ∀ s : State, MemWf s → s.cvalid = true →
    ∃ t, exec .unpack s = .next t ∧
      (∀ i, i < 1023 → (t.unpkAt i).toInt = 1 - 2 * ((s.chipAt i).toNat : Int)) ∧
      (∀ i, 1023 ≤ i → t.unpkAt i = s.unpkAt i) ∧
      t = { s with unpkMem := t.unpkMem, uvalid := true, done := false }

/-- Re-packing what an accepted UNPACK left gives CHIPMEM back (R113, an inference the spec marks as its own). -/
def Obligations.UnpackRoundTrip : Prop :=
  ∀ s : State, MemWf s → s.cvalid = true →
    ∃ t, exec .unpack s = .next t ∧ ∀ i, i < 1023 →
      ((t.unpkAt i).toInt = 1 ∨ (t.unpkAt i).toInt = -1) ∧ decide ((t.unpkAt i).toInt = -1) = t.chipAt i

/-- After GEN and UNPACK the chip is 2*x - 1, x the generator's XOR result of that step (R114, R93: inferences the spec marks as its own). -/
def Obligations.UnpackedChipIsXorResult : Prop :=
  ∀ (s : State) (t1 t2 : Nat), MemWf s → 1 ≤ t1 → t1 ≤ 10 → 1 ≤ t2 → t2 ≤ 10 →
    ∃ t u, exec (.gen t1 t2) s = .next t ∧ exec .unpack t = .next u ∧ ∀ i, i < 1023 →
      (u.unpkAt i).toInt = 2 * ((outputBit (stepsOf next1 i 0x3FF) (stepsOf next2 i 0x3FF) t1 t2).toNat : Int) - 1

/-! ### The correlator -/

/-- The sum the model computes in one pass is the formula of R121, at every shift. -/
def Obligations.CorrSumIsFormula : Prop :=
  ∀ (s : State) (k : Nat), MemWf s → k < 1023 →
    corrSum s k = ∑ i ∈ Finset.range 1023, s.sigAt ((i + k) % 1023) * (s.unpkAt i).toInt

/-- A signal that holds the chips delayed by d positions has its peak, 1023, at shift d (the inference that R121 marks as its own:
"has its peak at s = d"). -/
def Obligations.DelayedChipsPeakAtDelay : Prop :=
  ∀ (s : State) (d : Nat), MemWf s → ChipsAreUnits s → d < 1023 →
    (∀ j, j < 1023 → s.sigAt j = (s.unpkAt ((j + 1023 - d) % 1023)).toInt) →
    corrSum s d = 1023 ∧ ∀ k, k < 1023 → corrSum s k ≤ 1023

/-- No sum and no partial sum, over any set of terms, overflows ACC or reaches its most negative value, so ACC takes the sum
exactly (R126). -/
def Obligations.AccNeverOverflows : Prop :=
  ∀ (s : State) (k : Nat), SamplesFit s → ChipsAreUnits s → k < 1023 →
    (∀ I : Finset Nat, I ⊆ Finset.range 1023 →
      |∑ i ∈ I, s.sigAt ((i + k) % 1023) * (s.unpkAt i).toInt| ≤ 1023 * 2 ^ (s.width - 1) ∧
      |∑ i ∈ I, s.sigAt ((i + k) % 1023) * (s.unpkAt i).toInt| < 2 ^ (s.width + 9)) ∧
    narrow (s.width + 10) (formulaSum s k) = formulaSum s k

/-- Magnitude detection is strict, in both forms R122 gives it; a sum of exactly 828 does not qualify (R122). -/
def Obligations.ThresholdIsStrict : Prop :=
  (∀ a : Int, (qualifies a = true ↔ 828 < |a|) ∧ (qualifies a = true ↔ 828 < a ∨ a < -828)) ∧ qualifies 828 = false

/-- An accepted SEARCH completes in every state with UVALID = 1; it sets DONE and writes no more than SHIFT, ACC, RESULT, DET and NEG
(R120, R129). -/
def Obligations.SearchWritesResultRegistersOnly : Prop :=
  ∀ s : State, s.uvalid = true →
    ∃ t, exec .search s = .next t ∧
      t = { s with shift := t.shift, acc := t.acc, result := t.result, det := t.det, neg := t.neg, done := true }

/-- SEARCH reports the first shift whose sum exceeds the threshold, with the sign of that sum (R123, R124). -/
def Obligations.SearchReportsFirstQualifyingShift : Prop :=
  ∀ (s : State) (k : Nat), MemWf s → SamplesFit s → ChipsAreUnits s → s.uvalid = true → k < 1023 →
    Exceeds (formulaSum s k) → (∀ j, j < k → ¬Exceeds (formulaSum s j)) →
    ∃ t, exec .search s = .next t ∧ t.shift.toNat = k ∧ t.acc = formulaSum s k ∧ t.det = true ∧ t.done = true ∧
      (t.neg = true ↔ formulaSum s k < 0) ∧ t.result.toInt = if 0 ≤ formulaSum s k then (k : Int) else -(k : Int)

/-- SEARCH reports the sentinel when no shift qualifies, and keeps the last shift and its sum (R125). -/
def Obligations.SearchReportsSentinel : Prop :=
  ∀ s : State, MemWf s → SamplesFit s → ChipsAreUnits s → s.uvalid = true → (∀ j, j < 1023 → ¬Exceeds (formulaSum s j)) →
    ∃ t, exec .search s = .next t ∧ t.result.toInt = 10000 ∧ t.det = false ∧ t.neg = false ∧ t.done = true ∧
      t.shift.toNat = 1022 ∧ t.acc = formulaSum s 1022

/-- The result of an accepted SEARCH or CORR is a signed shift or the sentinel, and its sign agrees with NEG (R130, an inference the
spec marks as its own). -/
def Obligations.ResultRange : Prop :=
  ∀ (s : State) (i : Instr), (i = .search ∧ s.uvalid = true) ∨ (i = .corr ∧ s.cvalid = true) →
    ∃ t, exec i s = .next t ∧
      ((-1022 ≤ t.result.toInt ∧ t.result.toInt ≤ 1022) ∨ t.result.toInt = 10000) ∧
      (t.result.toInt < 0 → t.neg = true) ∧
      (0 < t.result.toInt → t.result.toInt ≤ 1022 → t.neg = false) ∧
      (t.result.toInt = 10000 → t.det = false)

/-- CORR is UNPACK followed by SEARCH, whatever UVALID and DONE were (R128: "the final state is the same as that of the two commands
issued one after the other", marked as derived there). -/
def Obligations.CorrIsUnpackThenSearch : Prop :=
  ∀ s : State, s.cvalid = true →
    ∃ u t, exec .unpack s = .next u ∧ exec .search u = .next t ∧ exec .corr s = .next t

/-- CORR writes UNPK, UVALID, DONE and the result registers, and nothing else (R128). -/
def Obligations.CorrFrame : Prop :=
  ∀ s : State, MemWf s → s.cvalid = true →
    ∃ t, exec .corr s = .next t ∧
      (∀ i, i < 1023 → (t.unpkAt i).toInt = 1 - 2 * ((s.chipAt i).toNat : Int)) ∧
      (∀ i, 1023 ≤ i → t.unpkAt i = s.unpkAt i) ∧
      t = { s with
        unpkMem := t.unpkMem, uvalid := true, done := true
        shift := t.shift, acc := t.acc, result := t.result, det := t.det, neg := t.neg }

/-- Self-correlation detects shift 0 with sum 1023 exactly (R135 item 1, marked as derived there). -/
def Obligations.SelfCorrelationDetectsShiftZero : Prop :=
  ∀ s : State, MemWf s → ChipsAreUnits s → s.uvalid = true → (∀ j, j < 1023 → s.sigAt j = (s.unpkAt j).toInt) →
    ∃ t, exec .search s = .next t ∧ t.acc = 1023 ∧ t.shift = 0 ∧ t.result = 0 ∧ t.det = true ∧ t.neg = false

/-- A search cannot be told to look at anything but SIG and UNPK: two states that agree on the sample width and on every sample and chip
report the same result (R120, R132). -/
def Obligations.SearchDependsOnSignalAndChipsOnly : Prop :=
  ∀ s s' : State, MemWf s → MemWf s' → s.uvalid = true → s'.uvalid = true → s.widthCode = s'.widthCode →
    (∀ i, i < 1023 → s.sigAt i = s'.sigAt i ∧ s.unpkAt i = s'.unpkAt i) →
    ∃ t t', exec .search s = .next t ∧ exec .search s' = .next t' ∧
      t.shift = t'.shift ∧ t.acc = t'.acc ∧ t.result = t'.result ∧ t.det = t'.det ∧ t.neg = t'.neg

/-! ### Reset -/

/-- The values and the register views right after a hard reset; no element of a memory is listed, which is the model's
way to leave each unspecified, a free value (R181; notes/assumptions/2.md and 7.md). -/
def Obligations.ResetValues : Prop :=
  let s := State.reset
  (s.g1 = 0x3FF ∧ s.g2 = 0x3FF ∧ s.t1 = 0 ∧ s.t2 = 0 ∧ s.chipcnt = 0 ∧ s.shift = 0 ∧ s.acc = 0 ∧ s.result.toInt = 10000) ∧
  (s.cvalid = false ∧ s.uvalid = false ∧ s.done = false ∧ s.det = false ∧ s.neg = false) ∧
  (s.err = false ∧ s.errcode = 0 ∧ s.errwr = false ∧ s.errval = 0) ∧
  (s.chipMem = [] ∧ s.unpkMem = [] ∧ s.sigMem = []) ∧
  (statusWord s = 0x00000000 ∧ resultWord s = 0x00002710 ∧ sumWord s = 0x00000000 ∧ shiftWord s = 0x00000000 ∧
    genstatWord s = 0x00000000 ∧ lfsrWord s = 0x03FF03FF ∧ errinfoWord s = 0x00000000 ∧
    configWord s = BitVec.ofNat 32 (0x000CF3FF + s.width * 0x00100000))

/-- A hard reset, from any state, between transactions or during one, leaves the registers of R181 and memories whose content is new
free values, and returns nothing; the host's script, what was returned before and the sample width are not the block's to reset
(R180, R181, R182; the last clause is the model's choice, notes/assumptions/2.md and 5.md). -/
def Obligations.HardResetStep : Prop :=
  ∀ (s : State) (during : Option Txn) (rest : List HostAction), s.script = .hardReset during :: rest →
    step s = .next
      { State.reset with widthCode := s.widthCode, epoch := s.epoch.next, script := rest, returned := s.returned }

/-- SRST leaves every register and flag as a hard reset would, and the memories as they were (R183). -/
def Obligations.SrstAgainstHardReset : Prop :=
  ∀ s : State, ∃ t h, exec .srst s = .next t ∧ hostAct (.hardReset none) s = .next h ∧
    t = { h with chipMem := s.chipMem, unpkMem := s.unpkMem, sigMem := s.sigMem, epoch := s.epoch } ∧
    ∀ i, t.sigAt i = s.sigAt i

/-! ### The whole machine -/

/-- The reset state meets the invariants of R34 (inferences the spec marks as its own). -/
def Obligations.ResetMeetsInvariants : Prop :=
  Inv State.reset

/-- Every step keeps the invariants of R34, and with them the canonical form of the memories and the strict width of ACC, "ACC never
holds −2^(W+9)" (R34, inferences the spec marks as its own; R126; the canonical form is the model's, notes/assumptions/7.md). -/
def Obligations.StepKeepsInvariants : Prop :=
  ∀ s t : State, Inv s → step s = .next t → Inv t

/-- Each memory changes only by its own writers: SIG by the host's writes, CHIPMEM by GEN, UNPK by UNPACK and CORR, all three by a hard
reset (R14, R15, R16, R53). -/
def Obligations.MemoriesChangeOnlyByTheirWriters : Prop :=
  ∀ (s t : State) (a : HostAction) (rest : List HostAction), s.script = a :: rest → step s = .next t → ¬Resets a →
    (¬WritesSig a → ∀ i, t.sigAt i = s.sigAt i) ∧
    ((∀ t1 t2, ¬Issues a (.gen t1 t2)) → ∀ i, t.chipAt i = s.chipAt i) ∧
    (¬Issues a .unpack → ¬Issues a .corr → ∀ i, t.unpkAt i = s.unpkAt i)

/-- Each flag is set and cleared only by what R20 lists for it, and ERR by what R21 lists: DET and NEG are set only by a search that
detects (NEG with a negative sum), ERR only by a refused transaction (R20, R21). -/
def Obligations.FlagsChangeOnlyAsListed : Prop :=
  ∀ (s t : State) (a : HostAction) (rest : List HostAction), s.script = a :: rest → step s = .next t →
    (s.cvalid = false → t.cvalid = true → ∃ t1 t2, Issues a (.gen t1 t2)) ∧
    (s.cvalid = true → t.cvalid = false → Resets a ∨ Issues a .srst) ∧
    (s.uvalid = false → t.uvalid = true → Issues a .unpack ∨ Issues a .corr) ∧
    (s.uvalid = true → t.uvalid = false → (∃ t1 t2, Issues a (.gen t1 t2)) ∨ Resets a ∨ Issues a .srst) ∧
    (s.done = false → t.done = true → Issues a .search ∨ Issues a .corr) ∧
    (s.done = true → t.done = false →
      (∃ t1 t2, Issues a (.gen t1 t2)) ∨ Issues a .unpack ∨ WritesSig a ∨ Resets a ∨ Issues a .srst) ∧
    (s.det = false → t.det = true → (Issues a .search ∨ Issues a .corr) ∧ Exceeds t.acc) ∧
    (s.det = true → t.det = false → Issues a .search ∨ Issues a .corr ∨ Resets a ∨ Issues a .srst) ∧
    (s.neg = false → t.neg = true → (Issues a .search ∨ Issues a .corr) ∧ t.det = true ∧ Exceeds t.acc ∧ t.acc < 0) ∧
    (s.neg = true → t.neg = false → Issues a .search ∨ Issues a .corr ∨ Resets a ∨ Issues a .srst) ∧
    (s.err = false → t.err = true → Refused s a) ∧
    (s.err = true → t.err = false → Issues a .clrerr ∨ Issues a .srst ∨ Resets a)

/-- After an accepted GEN the unpacked sequence is invalid: SEARCH is refused, and CORR is accepted (R189). -/
def Obligations.GenInvalidatesUnpacked : Prop :=
  ∀ (s : State) (t1 t2 : Nat), 1 ≤ t1 → t1 ≤ 10 → 1 ≤ t2 → t2 ≤ 10 →
    ∃ t, exec (.gen t1 t2) s = .next t ∧ exec .search t = .next (errorState t 3 true 0x3000) ∧
      ∃ u, exec .corr t = .next u ∧ u.uvalid = true ∧ u.done = true ∧ u.err = s.err

/-- Instances share nothing: a step of one leaves every other as it was (R58, R167). -/
def Obligations.InstancesAreIndependent : Prop :=
  ∀ (sys sys' : List State) (k : Nat), stepInstance k sys = .next sys' →
    sys'.length = sys.length ∧ (∀ j, j ≠ k → sys'[j]? = sys[j]?) ∧
    ∀ s, sys[k]? = some s → ∃ t, step s = .next t ∧ sys'[k]? = some t

/-- The sample width and the serial number are fixed for an instance; a hard reset adds one to the number of its hard resets, which
draws new free values, and no other step does (R4, R5, R182; the fields are the model's own, notes/assumptions/1.md and 2.md). -/
def Obligations.ParametersNeverChange : Prop :=
  ∀ s t : State, step s = .next t →
    t.widthCode = s.widthCode ∧ t.epoch.serial = s.epoch.serial ∧
    (∀ during rest, s.script = .hardReset during :: rest → t.epoch.resets = s.epoch.resets + 1) ∧
    ((∀ during rest, s.script ≠ .hardReset during :: rest) → t.epoch.resets = s.epoch.resets)

/-- From a start with ERR = 0, and with no CLRERR, SRST or hard reset among its actions, a run is good, that is none of its transactions
is refused, exactly when it runs to its end and ERR = 0 there (R195). -/
def Obligations.GoodRunEndsWithErrClear : Prop :=
  ∀ (acts : List HostAction) (s : State), s.err = false →
    (∀ a, a ∈ acts → ¬Issues a .clrerr ∧ ¬Issues a .srst ∧ ¬Resets a) →
    (Good acts s ↔ ∃ t, run acts s = .next t ∧ t.err = false)
end

