-- ==== Sys2Proof/Laws/Arith.lean ====
section
/-!
SUPPORT. Two's complement: what a register of n bits holds after a write always fits n bits, and is the integer written when that
integer fits.
-/

namespace Sys2Proof.Machine

open Sys2Proof.Safety

/-- `sext` of an n-bit pattern fits n bits. -/
theorem sext_fits {n v : Nat} (hn : 0 < n) (hv : v < 2 ^ n) : Fits n (sext n v) := by
  obtain ⟨m, rfl⟩ : ∃ m, n = m + 1 := ⟨n - 1, by omega⟩
  have h2 : 2 ^ (m + 1) = 2 * 2 ^ m := by rw [pow_succ]; omega
  have h2i : (2 : Int) ^ (m + 1) = 2 * 2 ^ m := by rw [pow_succ]; omega
  have hc : ((2 ^ m : Nat) : Int) = (2 : Int) ^ m := by push_cast; rfl
  simp only [Fits, sext, Nat.add_sub_cancel]
  split <;> constructor <;> omega

/-- A register always holds a value of its width. -/
theorem narrow_fits {n : Nat} (hn : 0 < n) (x : Int) : Fits n (narrow n x) := by
  have hpos : (0 : Int) < 2 ^ n := by positivity
  have h0 := Int.emod_nonneg x (show (2 : Int) ^ n ≠ 0 by omega)
  have h1 := Int.emod_lt_of_pos x hpos
  have hc : ((2 ^ n : Nat) : Int) = (2 : Int) ^ n := by push_cast; rfl
  exact sext_fits hn (by omega)

/-- A value that fits is kept exactly. -/
theorem narrow_of_fits {n : Nat} {x : Int} (hn : 0 < n) (h : Fits n x) : narrow n x = x := by
  obtain ⟨m, rfl⟩ : ∃ m, n = m + 1 := ⟨n - 1, by omega⟩
  have h2 : 2 ^ (m + 1) = 2 * 2 ^ m := by rw [pow_succ]; omega
  have h2i : (2 : Int) ^ (m + 1) = 2 * 2 ^ m := by rw [pow_succ]; omega
  have hc : ((2 ^ m : Nat) : Int) = (2 : Int) ^ m := by push_cast; rfl
  have hpos : (0 : Int) < 2 ^ m := by positivity
  simp only [Fits, Nat.add_sub_cancel] at h
  by_cases hx : 0 ≤ x
  · have he : x % 2 ^ (m + 1) = x := Int.emod_eq_of_lt hx (by omega)
    simp only [narrow, sext, he, Nat.add_sub_cancel]
    rw [if_pos (by omega)]
    omega
  · have he : x % 2 ^ (m + 1) = x + 2 ^ (m + 1) := by
      rw [← Int.add_emod_right, Int.emod_eq_of_lt (by omega) (by omega)]
    simp only [narrow, sext, he, Nat.add_sub_cancel]
    rw [if_neg (by omega)]
    omega

/-- A word's sample fits the sample width. -/
theorem resetSample_fits (code : Fin 21) (epoch : Config.Epoch) (i : Nat) : Fits (Config.widthOf code) (resetSample code epoch i) :=
  narrow_fits (Nat.succ_pos _) _

/-- The threshold unit is the magnitude test of R122. -/
theorem qualifies_iff (a : Int) : qualifies a = true ↔ Exceeds a := by
  simp only [qualifies, Exceeds, Config.threshold, Bool.or_eq_true, decide_eq_true_eq, lt_abs]
  omega

end Sys2Proof.Machine
end

