-- ==== Sys2Proof/Laws/Mem.lean ====
section
/-!
SUPPORT. The element memories: a read after a write, a write leaves every other element alone, every operation keeps the canonical
form, and memories in canonical form that list the same elements are equal.
-/

namespace Sys2Proof.Machine

variable {α : Type}

/-! ### Canonical form -/

@[simp] theorem Mem.wfFrom_nil (b lo : Nat) : Mem.wfFrom b lo ([] : Mem α) = true := rfl

@[simp] theorem Mem.wfFrom_cons (b lo j : Nat) (v : α) (rest : Mem α) :
    Mem.wfFrom b lo ((j, v) :: rest) = true ↔ (lo ≤ j ∧ j < b) ∧ Mem.wfFrom b (j + 1) rest = true := by
  simp [Mem.wfFrom]

theorem Mem.wfFrom_mono {b lo lo' : Nat} {m : Mem α} (h : Mem.wfFrom b lo m = true) (hle : lo' ≤ lo) :
    Mem.wfFrom b lo' m = true := by
  cases m with
  | nil => rfl
  | cons c rest =>
    obtain ⟨j, v⟩ := c
    simp only [Mem.wfFrom_cons] at h ⊢
    exact ⟨⟨by omega, h.1.2⟩, h.2⟩

/-- Every index listed lies in the range the form gives. -/
theorem Mem.mem_bounds {b lo : Nat} {m : Mem α} (h : Mem.wfFrom b lo m = true) {c : Nat × α} (hc : c ∈ m) : lo ≤ c.1 ∧ c.1 < b := by
  induction m generalizing lo with
  | nil => cases hc
  | cons d rest ih =>
    obtain ⟨j, v⟩ := d
    simp only [Mem.wfFrom_cons] at h
    rcases List.mem_cons.1 hc with rfl | hr
    · exact h.1
    · have := ih h.2 hr
      omega

/-! ### Single elements -/

@[simp] theorem Mem.find_nil (i : Nat) : Mem.find ([] : Mem α) i = none := rfl

theorem Mem.find_cons (j : Nat) (v : α) (rest : Mem α) (i : Nat) :
    Mem.find ((j, v) :: rest) i = if j = i then some v else Mem.find rest i := rfl

/-- Nothing below the first index is listed. -/
theorem Mem.find_below {b lo i : Nat} {m : Mem α} (h : Mem.wfFrom b lo m = true) (hi : i < lo) : Mem.find m i = none := by
  induction m generalizing lo with
  | nil => rfl
  | cons c rest ih =>
    obtain ⟨j, v⟩ := c
    simp only [Mem.wfFrom_cons] at h
    rw [Mem.find_cons, if_neg (by omega)]
    exact ih h.2 (by omega)

@[simp] theorem Mem.find_store_same (m : Mem α) (i : Nat) (v : α) : Mem.find (Mem.store m i v) i = some v := by
  induction m with
  | nil => simp [Mem.store, Mem.find]
  | cons c rest ih =>
    obtain ⟨j, u⟩ := c
    simp only [Mem.store]
    split
    · simp [Mem.find]
    · split
      · simp [Mem.find]
      · rw [Mem.find_cons, if_neg (by omega), ih]

theorem Mem.find_store_other (m : Mem α) {i k : Nat} (v : α) (h : i ≠ k) : Mem.find (Mem.store m i v) k = Mem.find m k := by
  induction m with
  | nil => simp [Mem.store, Mem.find, h]
  | cons c rest ih =>
    obtain ⟨j, u⟩ := c
    simp only [Mem.store]
    split
    · rw [Mem.find_cons, if_neg h]
    · split
      · subst_vars
        rw [Mem.find_cons, Mem.find_cons, if_neg h, if_neg h]
      · rw [Mem.find_cons, Mem.find_cons, ih]

theorem Mem.find_store (m : Mem α) (i k : Nat) (v : α) :
    Mem.find (Mem.store m i v) k = if i = k then some v else Mem.find m k := by
  split
  · subst_vars; simp
  · exact Mem.find_store_other m v ‹_›

theorem Mem.wfFrom_store {b lo i : Nat} {m : Mem α} (v : α) (h : Mem.wfFrom b lo m = true) (hlo : lo ≤ i) (hi : i < b) :
    Mem.wfFrom b lo (Mem.store m i v) = true := by
  induction m generalizing lo with
  | nil => simp [Mem.store, hlo, hi]
  | cons c rest ih =>
    obtain ⟨j, u⟩ := c
    simp only [Mem.wfFrom_cons] at h
    simp only [Mem.store]
    split
    · simp only [Mem.wfFrom_cons]
      exact ⟨⟨hlo, hi⟩, ⟨by omega, h.1.2⟩, h.2⟩
    · split
      · subst_vars
        simp only [Mem.wfFrom_cons]
        exact h
      · simp only [Mem.wfFrom_cons]
        exact ⟨h.1, ih h.2 (by omega)⟩

/-- A write inside the memory keeps its canonical form. -/
theorem Mem.wf_store {b i : Nat} {m : Mem α} (v : α) (h : Mem.wf b m = true) (hi : i < b) : Mem.wf b (Mem.store m i v) = true :=
  Mem.wfFrom_store v h (Nat.zero_le i) hi

/-- Memories in canonical form that list the same elements are equal data. -/
theorem Mem.ext_of_find {b lo : Nat} {m m' : Mem α} (h : Mem.wfFrom b lo m = true) (h' : Mem.wfFrom b lo m' = true)
    (hf : ∀ i, Mem.find m i = Mem.find m' i) : m = m' := by
  induction m generalizing lo m' with
  | nil =>
    cases m' with
    | nil => rfl
    | cons c rest =>
      have := hf c.1
      simp [Mem.find] at this
  | cons c rest ih =>
    obtain ⟨j, v⟩ := c
    cases m' with
    | nil => have := hf j; simp [Mem.find] at this
    | cons c' rest' =>
      obtain ⟨j', v'⟩ := c'
      simp only [Mem.wfFrom_cons] at h h'
      have hj : j = j' := by
        rcases Nat.lt_trichotomy j j' with hlt | heq | hgt
        · have := hf j
          rw [Mem.find_cons, if_pos rfl, Mem.find_cons, if_neg (by omega), Mem.find_below h'.2 (by omega)] at this
          cases this
        · exact heq
        · have := hf j'
          rw [Mem.find_cons, if_neg (by omega), Mem.find_below h.2 (by omega), Mem.find_cons, if_pos rfl] at this
          cases this
      subst hj
      have hv : v = v' := by
        have := hf j
        rw [Mem.find_cons, Mem.find_cons, if_pos rfl, if_pos rfl] at this
        exact Option.some.inj this
      subst hv
      congr 1
      refine ih h.2 h'.2 fun i => ?_
      have := hf i
      rw [Mem.find_cons, Mem.find_cons] at this
      by_cases hi : j = i
      · subst hi
        rw [Mem.find_below h.2 (by omega), Mem.find_below h'.2 (by omega)]
      · rwa [if_neg hi, if_neg hi] at this

/-! ### Many elements in one pass -/

@[simp] theorem Mem.pairs_nil (lo : Nat) : Mem.pairs lo ([] : List α) = [] := rfl

theorem Mem.find_pairs (lo : Nat) (vals : List α) (i : Nat) :
    Mem.find (Mem.pairs lo vals) i = if lo ≤ i then vals[i - lo]? else none := by
  induction vals generalizing lo with
  | nil => simp
  | cons v rest ih =>
    rw [Mem.pairs, Mem.find_cons, ih]
    rcases Nat.lt_trichotomy lo i with hlt | rfl | hgt
    · rw [if_neg (by omega), if_pos (by omega), if_pos (by omega), show i - lo = (i - (lo + 1)) + 1 by omega]
      simp
    · simp
    · rw [if_neg (by omega), if_neg (by omega), if_neg (by omega)]

theorem Mem.find_append (m m' : Mem α) (i : Nat) : Mem.find (m ++ m') i = (Mem.find m i).or (Mem.find m' i) := by
  induction m with
  | nil => simp
  | cons c rest ih =>
    obtain ⟨j, v⟩ := c
    rw [List.cons_append, Mem.find_cons, Mem.find_cons, ih]
    split <;> simp

theorem Mem.find_filter (m : Mem α) (p : Nat → Bool) (i : Nat) :
    Mem.find (m.filter fun c => p c.1) i = if p i then Mem.find m i else none := by
  induction m with
  | nil => simp
  | cons c rest ih =>
    obtain ⟨j, v⟩ := c
    by_cases hj : p j = true
    · rw [List.filter_cons_of_pos (by simpa using hj), Mem.find_cons, Mem.find_cons, ih]
      by_cases h : j = i
      · subst h; simp [hj]
      · simp [h]
    · rw [List.filter_cons_of_neg (by simpa using hj), ih, Mem.find_cons]
      by_cases h : j = i
      · subst h; simp [hj]
      · simp [h]

/-- What a memory lists after a fill: the values given in their range, everything else as before. -/
theorem Mem.find_fill (m : Mem α) (lo : Nat) (vals : List α) (i : Nat) :
    Mem.find (Mem.fill m lo vals) i = if lo ≤ i ∧ i < lo + vals.length then vals[i - lo]? else Mem.find m i := by
  rw [Mem.fill, Mem.find_append, Mem.find_append, Mem.find_filter m (fun j => decide (j < lo)),
    Mem.find_filter m (fun j => decide (lo + vals.length ≤ j)), Mem.find_pairs]
  by_cases h1 : i < lo
  · rw [if_neg (by omega : ¬(lo ≤ i ∧ i < lo + vals.length)), if_neg (by omega : ¬lo ≤ i)]
    simp only [h1, decide_true, if_true, show ¬(lo + vals.length ≤ i) by omega, decide_false, Bool.false_eq_true, if_false,
      Option.or_none]
  · by_cases h2 : i < lo + vals.length
    · rw [if_pos (by omega : lo ≤ i), if_pos (by omega : lo ≤ i ∧ i < lo + vals.length)]
      have : i - lo < vals.length := by omega
      simp [h1, List.getElem?_eq_getElem this]
    · rw [if_pos (by omega : lo ≤ i), if_neg (by omega : ¬(lo ≤ i ∧ i < lo + vals.length))]
      have : vals[i - lo]? = none := List.getElem?_eq_none (by omega)
      simp [h1, this, show lo + vals.length ≤ i by omega]

theorem Mem.wfFrom_filter {b lo : Nat} {m : Mem α} (p : Nat × α → Bool) (h : Mem.wfFrom b lo m = true) :
    Mem.wfFrom b lo (m.filter p) = true := by
  induction m generalizing lo with
  | nil => rfl
  | cons c rest ih =>
    obtain ⟨j, v⟩ := c
    simp only [Mem.wfFrom_cons] at h
    by_cases hp : p (j, v) = true
    · rw [List.filter_cons_of_pos hp]
      exact (Mem.wfFrom_cons ..).2 ⟨h.1, ih h.2⟩
    · rw [List.filter_cons_of_neg hp]
      exact Mem.wfFrom_mono (ih h.2) (by omega)

/-- Raise the lower bound of a memory whose indexes all reach it. -/
theorem Mem.wfFrom_raise {b lo lo' : Nat} {m : Mem α} (h : Mem.wfFrom b lo m = true) (hall : ∀ c ∈ m, lo' ≤ c.1) :
    Mem.wfFrom b lo' m = true := by
  cases m with
  | nil => rfl
  | cons c rest =>
    obtain ⟨j, v⟩ := c
    simp only [Mem.wfFrom_cons] at h ⊢
    exact ⟨⟨hall _ (List.mem_cons_self ..), h.1.2⟩, h.2⟩

theorem Mem.wfFrom_append {b lo mid : Nat} {m m' : Mem α} (h : Mem.wfFrom b lo m = true) (hm : ∀ c ∈ m, c.1 < mid)
    (hlo : lo ≤ mid) (h' : Mem.wfFrom b mid m' = true) : Mem.wfFrom b lo (m ++ m') = true := by
  induction m generalizing lo with
  | nil => exact Mem.wfFrom_mono h' hlo
  | cons c rest ih =>
    obtain ⟨j, v⟩ := c
    simp only [Mem.wfFrom_cons] at h
    have hj : j < mid := hm _ (List.mem_cons_self ..)
    exact (Mem.wfFrom_cons ..).2 ⟨h.1, ih h.2 (fun c hc => hm c (List.mem_cons_of_mem _ hc)) hj⟩

theorem Mem.wfFrom_pairs {b lo : Nat} {vals : List α} (h : lo + vals.length ≤ b) : Mem.wfFrom b lo (Mem.pairs lo vals) = true := by
  induction vals generalizing lo with
  | nil => rfl
  | cons v rest ih =>
    simp only [List.length_cons] at h
    exact (Mem.wfFrom_cons ..).2 ⟨⟨Nat.le_refl _, by omega⟩, ih (by omega)⟩

theorem Mem.mem_pairs_lt {lo : Nat} {vals : List α} {c : Nat × α} (hc : c ∈ Mem.pairs lo vals) : c.1 < lo + vals.length := by
  induction vals generalizing lo with
  | nil => cases hc
  | cons v rest ih =>
    rcases List.mem_cons.1 hc with rfl | hr
    · simp
    · have := ih hr
      simp only [List.length_cons]
      omega

/-- A fill inside the memory keeps its canonical form. -/
theorem Mem.wf_fill {b lo : Nat} {m : Mem α} (vals : List α) (h : Mem.wf b m = true) (hb : lo + vals.length ≤ b) :
    Mem.wf b (Mem.fill m lo vals) = true := by
  have low : Mem.wfFrom b 0 (m.filter fun c => decide (c.1 < lo)) = true := Mem.wfFrom_filter _ h
  have mid : Mem.wfFrom b lo (Mem.pairs lo vals) = true := Mem.wfFrom_pairs hb
  have high : Mem.wfFrom b (lo + vals.length) (m.filter fun c => decide (lo + vals.length ≤ c.1)) = true :=
    Mem.wfFrom_raise (Mem.wfFrom_filter _ h) (fun c hc => by simpa using (List.mem_filter.1 hc).2)
  rw [Mem.wf, Mem.fill, List.append_assoc]
  exact Mem.wfFrom_append low (fun c hc => by simpa using (List.mem_filter.1 hc).2) (Nat.zero_le _)
    (Mem.wfFrom_append mid (fun c hc => Mem.mem_pairs_lt hc) (Nat.le_add_right ..) high)

@[simp] theorem Mem.length_values (free : Nat → α) (n lo : Nat) (m : Mem α) : (Mem.values free n lo m).length = n := by
  induction n generalizing lo m with
  | zero => rfl
  | succ n ih =>
    cases m with
    | nil => simp [Mem.values, ih]
    | cons c rest =>
      obtain ⟨j, v⟩ := c
      simp only [Mem.values]
      split <;> simp [ih]

/-- The values of a memory in canonical form, taken in one pass, are its elements read one by one. -/
theorem Mem.values_getElem? {b : Nat} (free : Nat → α) (n lo : Nat) (m : Mem α) (h : Mem.wfFrom b lo m = true) (i : Nat) :
    (Mem.values free n lo m)[i]? = if i < n then some ((Mem.find m (lo + i)).getD (free (lo + i))) else none := by
  induction n generalizing lo m i with
  | zero => simp [Mem.values]
  | succ n ih =>
    cases m with
    | nil =>
      cases i with
      | zero => simp [Mem.values]
      | succ i =>
        simp only [Mem.values, List.getElem?_cons_succ]
        rw [ih (lo + 1) [] rfl i]
        simp [show lo + 1 + i = lo + (i + 1) by omega]
    | cons c rest =>
      obtain ⟨j, v⟩ := c
      simp only [Mem.wfFrom_cons] at h
      simp only [Mem.values]
      by_cases hj : j = lo
      · subst hj
        rw [if_pos rfl]
        cases i with
        | zero => simp [Mem.find]
        | succ i =>
          have hne : ¬j = j + (i + 1) := by omega
          rw [List.getElem?_cons_succ, ih (j + 1) rest h.2 i, show j + 1 + i = j + (i + 1) by omega, Mem.find_cons, if_neg hne]
          simp
      · rw [if_neg hj]
        have hwf : Mem.wfFrom b (lo + 1) ((j, v) :: rest) = true := (Mem.wfFrom_cons ..).2 ⟨⟨by omega, h.1.2⟩, h.2⟩
        cases i with
        | zero => simp [Mem.find_below hwf (Nat.lt_succ_self lo)]
        | succ i =>
          rw [List.getElem?_cons_succ, ih (lo + 1) _ hwf i]
          simp [show lo + 1 + i = lo + (i + 1) by omega]

/-! ### The memories of the reset state -/

/-- The memories of `State.reset` are in canonical form. -/
theorem State.reset_memories_wf :
    Mem.wf 1024 State.reset.chipMem = true ∧ Mem.wf 1023 State.reset.unpkMem = true ∧ Mem.wf 1023 State.reset.sigMem = true :=
  ⟨rfl, rfl, rfl⟩

end Sys2Proof.Machine
end

