-- ==== Sys2Proof/Laws/State.lean ====
section
/-!
SUPPORT. One lemma per field, or per memory read, of each named update of the state.
-/

namespace Sys2Proof.Machine

/-! `State.writeChip` -/

@[simp] theorem State.writeChip_g1 (s : State) (i : Nat) (p : Bool) : (s.writeChip i p).g1 = s.g1 := rfl
@[simp] theorem State.writeChip_g2 (s : State) (i : Nat) (p : Bool) : (s.writeChip i p).g2 = s.g2 := rfl
@[simp] theorem State.writeChip_t1 (s : State) (i : Nat) (p : Bool) : (s.writeChip i p).t1 = s.t1 := rfl
@[simp] theorem State.writeChip_t2 (s : State) (i : Nat) (p : Bool) : (s.writeChip i p).t2 = s.t2 := rfl
@[simp] theorem State.writeChip_chipcnt (s : State) (i : Nat) (p : Bool) : (s.writeChip i p).chipcnt = s.chipcnt := rfl
@[simp] theorem State.writeChip_chipMem (s : State) (i : Nat) (p : Bool) : (s.writeChip i p).chipMem = Mem.store s.chipMem i p := rfl
@[simp] theorem State.writeChip_unpkMem (s : State) (i : Nat) (p : Bool) : (s.writeChip i p).unpkMem = s.unpkMem := rfl
@[simp] theorem State.writeChip_sigMem (s : State) (i : Nat) (p : Bool) : (s.writeChip i p).sigMem = s.sigMem := rfl
@[simp] theorem State.writeChip_shift (s : State) (i : Nat) (p : Bool) : (s.writeChip i p).shift = s.shift := rfl
@[simp] theorem State.writeChip_acc (s : State) (i : Nat) (p : Bool) : (s.writeChip i p).acc = s.acc := rfl
@[simp] theorem State.writeChip_result (s : State) (i : Nat) (p : Bool) : (s.writeChip i p).result = s.result := rfl
@[simp] theorem State.writeChip_cvalid (s : State) (i : Nat) (p : Bool) : (s.writeChip i p).cvalid = s.cvalid := rfl
@[simp] theorem State.writeChip_uvalid (s : State) (i : Nat) (p : Bool) : (s.writeChip i p).uvalid = s.uvalid := rfl
@[simp] theorem State.writeChip_done (s : State) (i : Nat) (p : Bool) : (s.writeChip i p).done = s.done := rfl
@[simp] theorem State.writeChip_det (s : State) (i : Nat) (p : Bool) : (s.writeChip i p).det = s.det := rfl
@[simp] theorem State.writeChip_neg (s : State) (i : Nat) (p : Bool) : (s.writeChip i p).neg = s.neg := rfl
@[simp] theorem State.writeChip_err (s : State) (i : Nat) (p : Bool) : (s.writeChip i p).err = s.err := rfl
@[simp] theorem State.writeChip_errcode (s : State) (i : Nat) (p : Bool) : (s.writeChip i p).errcode = s.errcode := rfl
@[simp] theorem State.writeChip_errwr (s : State) (i : Nat) (p : Bool) : (s.writeChip i p).errwr = s.errwr := rfl
@[simp] theorem State.writeChip_errval (s : State) (i : Nat) (p : Bool) : (s.writeChip i p).errval = s.errval := rfl
@[simp] theorem State.writeChip_widthCode (s : State) (i : Nat) (p : Bool) : (s.writeChip i p).widthCode = s.widthCode := rfl
@[simp] theorem State.writeChip_epoch (s : State) (i : Nat) (p : Bool) : (s.writeChip i p).epoch = s.epoch := rfl
@[simp] theorem State.writeChip_script (s : State) (i : Nat) (p : Bool) : (s.writeChip i p).script = s.script := rfl
@[simp] theorem State.writeChip_returned (s : State) (i : Nat) (p : Bool) : (s.writeChip i p).returned = s.returned := rfl
@[simp] theorem State.writeChip_sigAt (s : State) (i : Nat) (p : Bool) (j : Nat) : (s.writeChip i p).sigAt j = s.sigAt j := rfl
@[simp] theorem State.writeChip_unpkAt (s : State) (i : Nat) (p : Bool) (j : Nat) : (s.writeChip i p).unpkAt j = s.unpkAt j := rfl
@[simp] theorem State.writeChip_sigValues (s : State) (i : Nat) (p : Bool) : (s.writeChip i p).sigValues = s.sigValues := rfl
@[simp] theorem State.writeChip_unpkValues (s : State) (i : Nat) (p : Bool) : (s.writeChip i p).unpkValues = s.unpkValues := rfl

/-! `State.fillChips` -/

@[simp] theorem State.fillChips_g1 (s : State) (bits : List Bool) : (s.fillChips bits).g1 = s.g1 := rfl
@[simp] theorem State.fillChips_g2 (s : State) (bits : List Bool) : (s.fillChips bits).g2 = s.g2 := rfl
@[simp] theorem State.fillChips_t1 (s : State) (bits : List Bool) : (s.fillChips bits).t1 = s.t1 := rfl
@[simp] theorem State.fillChips_t2 (s : State) (bits : List Bool) : (s.fillChips bits).t2 = s.t2 := rfl
@[simp] theorem State.fillChips_chipcnt (s : State) (bits : List Bool) : (s.fillChips bits).chipcnt = s.chipcnt := rfl
@[simp] theorem State.fillChips_chipMem (s : State) (bits : List Bool) : (s.fillChips bits).chipMem = Mem.fill s.chipMem 0 bits := rfl
@[simp] theorem State.fillChips_unpkMem (s : State) (bits : List Bool) : (s.fillChips bits).unpkMem = s.unpkMem := rfl
@[simp] theorem State.fillChips_sigMem (s : State) (bits : List Bool) : (s.fillChips bits).sigMem = s.sigMem := rfl
@[simp] theorem State.fillChips_shift (s : State) (bits : List Bool) : (s.fillChips bits).shift = s.shift := rfl
@[simp] theorem State.fillChips_acc (s : State) (bits : List Bool) : (s.fillChips bits).acc = s.acc := rfl
@[simp] theorem State.fillChips_result (s : State) (bits : List Bool) : (s.fillChips bits).result = s.result := rfl
@[simp] theorem State.fillChips_cvalid (s : State) (bits : List Bool) : (s.fillChips bits).cvalid = s.cvalid := rfl
@[simp] theorem State.fillChips_uvalid (s : State) (bits : List Bool) : (s.fillChips bits).uvalid = s.uvalid := rfl
@[simp] theorem State.fillChips_done (s : State) (bits : List Bool) : (s.fillChips bits).done = s.done := rfl
@[simp] theorem State.fillChips_det (s : State) (bits : List Bool) : (s.fillChips bits).det = s.det := rfl
@[simp] theorem State.fillChips_neg (s : State) (bits : List Bool) : (s.fillChips bits).neg = s.neg := rfl
@[simp] theorem State.fillChips_err (s : State) (bits : List Bool) : (s.fillChips bits).err = s.err := rfl
@[simp] theorem State.fillChips_errcode (s : State) (bits : List Bool) : (s.fillChips bits).errcode = s.errcode := rfl
@[simp] theorem State.fillChips_errwr (s : State) (bits : List Bool) : (s.fillChips bits).errwr = s.errwr := rfl
@[simp] theorem State.fillChips_errval (s : State) (bits : List Bool) : (s.fillChips bits).errval = s.errval := rfl
@[simp] theorem State.fillChips_widthCode (s : State) (bits : List Bool) : (s.fillChips bits).widthCode = s.widthCode := rfl
@[simp] theorem State.fillChips_epoch (s : State) (bits : List Bool) : (s.fillChips bits).epoch = s.epoch := rfl
@[simp] theorem State.fillChips_script (s : State) (bits : List Bool) : (s.fillChips bits).script = s.script := rfl
@[simp] theorem State.fillChips_returned (s : State) (bits : List Bool) : (s.fillChips bits).returned = s.returned := rfl
@[simp] theorem State.fillChips_sigAt (s : State) (bits : List Bool) (j : Nat) : (s.fillChips bits).sigAt j = s.sigAt j := rfl
@[simp] theorem State.fillChips_unpkAt (s : State) (bits : List Bool) (j : Nat) : (s.fillChips bits).unpkAt j = s.unpkAt j := rfl
@[simp] theorem State.fillChips_sigValues (s : State) (bits : List Bool) : (s.fillChips bits).sigValues = s.sigValues := rfl
@[simp] theorem State.fillChips_unpkValues (s : State) (bits : List Bool) : (s.fillChips bits).unpkValues = s.unpkValues := rfl

/-! `State.fillUnpk` -/

@[simp] theorem State.fillUnpk_g1 (s : State) (chips : List (BitVec 2)) : (s.fillUnpk chips).g1 = s.g1 := rfl
@[simp] theorem State.fillUnpk_g2 (s : State) (chips : List (BitVec 2)) : (s.fillUnpk chips).g2 = s.g2 := rfl
@[simp] theorem State.fillUnpk_t1 (s : State) (chips : List (BitVec 2)) : (s.fillUnpk chips).t1 = s.t1 := rfl
@[simp] theorem State.fillUnpk_t2 (s : State) (chips : List (BitVec 2)) : (s.fillUnpk chips).t2 = s.t2 := rfl
@[simp] theorem State.fillUnpk_chipcnt (s : State) (chips : List (BitVec 2)) : (s.fillUnpk chips).chipcnt = s.chipcnt := rfl
@[simp] theorem State.fillUnpk_chipMem (s : State) (chips : List (BitVec 2)) : (s.fillUnpk chips).chipMem = s.chipMem := rfl
@[simp] theorem State.fillUnpk_unpkMem (s : State) (chips : List (BitVec 2)) : (s.fillUnpk chips).unpkMem = Mem.fill s.unpkMem 0 chips := rfl
@[simp] theorem State.fillUnpk_sigMem (s : State) (chips : List (BitVec 2)) : (s.fillUnpk chips).sigMem = s.sigMem := rfl
@[simp] theorem State.fillUnpk_shift (s : State) (chips : List (BitVec 2)) : (s.fillUnpk chips).shift = s.shift := rfl
@[simp] theorem State.fillUnpk_acc (s : State) (chips : List (BitVec 2)) : (s.fillUnpk chips).acc = s.acc := rfl
@[simp] theorem State.fillUnpk_result (s : State) (chips : List (BitVec 2)) : (s.fillUnpk chips).result = s.result := rfl
@[simp] theorem State.fillUnpk_cvalid (s : State) (chips : List (BitVec 2)) : (s.fillUnpk chips).cvalid = s.cvalid := rfl
@[simp] theorem State.fillUnpk_uvalid (s : State) (chips : List (BitVec 2)) : (s.fillUnpk chips).uvalid = s.uvalid := rfl
@[simp] theorem State.fillUnpk_done (s : State) (chips : List (BitVec 2)) : (s.fillUnpk chips).done = s.done := rfl
@[simp] theorem State.fillUnpk_det (s : State) (chips : List (BitVec 2)) : (s.fillUnpk chips).det = s.det := rfl
@[simp] theorem State.fillUnpk_neg (s : State) (chips : List (BitVec 2)) : (s.fillUnpk chips).neg = s.neg := rfl
@[simp] theorem State.fillUnpk_err (s : State) (chips : List (BitVec 2)) : (s.fillUnpk chips).err = s.err := rfl
@[simp] theorem State.fillUnpk_errcode (s : State) (chips : List (BitVec 2)) : (s.fillUnpk chips).errcode = s.errcode := rfl
@[simp] theorem State.fillUnpk_errwr (s : State) (chips : List (BitVec 2)) : (s.fillUnpk chips).errwr = s.errwr := rfl
@[simp] theorem State.fillUnpk_errval (s : State) (chips : List (BitVec 2)) : (s.fillUnpk chips).errval = s.errval := rfl
@[simp] theorem State.fillUnpk_widthCode (s : State) (chips : List (BitVec 2)) : (s.fillUnpk chips).widthCode = s.widthCode := rfl
@[simp] theorem State.fillUnpk_epoch (s : State) (chips : List (BitVec 2)) : (s.fillUnpk chips).epoch = s.epoch := rfl
@[simp] theorem State.fillUnpk_script (s : State) (chips : List (BitVec 2)) : (s.fillUnpk chips).script = s.script := rfl
@[simp] theorem State.fillUnpk_returned (s : State) (chips : List (BitVec 2)) : (s.fillUnpk chips).returned = s.returned := rfl
@[simp] theorem State.fillUnpk_sigAt (s : State) (chips : List (BitVec 2)) (j : Nat) : (s.fillUnpk chips).sigAt j = s.sigAt j := rfl
@[simp] theorem State.fillUnpk_chipAt (s : State) (chips : List (BitVec 2)) (j : Nat) : (s.fillUnpk chips).chipAt j = s.chipAt j := rfl
@[simp] theorem State.fillUnpk_sigValues (s : State) (chips : List (BitVec 2)) : (s.fillUnpk chips).sigValues = s.sigValues := rfl
@[simp] theorem State.fillUnpk_chipValues (s : State) (chips : List (BitVec 2)) : (s.fillUnpk chips).chipValues = s.chipValues := rfl

/-! `State.writeSig` -/

@[simp] theorem State.writeSig_g1 (s : State) (i : Nat) (v : Word) : (s.writeSig i v).g1 = s.g1 := rfl
@[simp] theorem State.writeSig_g2 (s : State) (i : Nat) (v : Word) : (s.writeSig i v).g2 = s.g2 := rfl
@[simp] theorem State.writeSig_t1 (s : State) (i : Nat) (v : Word) : (s.writeSig i v).t1 = s.t1 := rfl
@[simp] theorem State.writeSig_t2 (s : State) (i : Nat) (v : Word) : (s.writeSig i v).t2 = s.t2 := rfl
@[simp] theorem State.writeSig_chipcnt (s : State) (i : Nat) (v : Word) : (s.writeSig i v).chipcnt = s.chipcnt := rfl
@[simp] theorem State.writeSig_chipMem (s : State) (i : Nat) (v : Word) : (s.writeSig i v).chipMem = s.chipMem := rfl
@[simp] theorem State.writeSig_unpkMem (s : State) (i : Nat) (v : Word) : (s.writeSig i v).unpkMem = s.unpkMem := rfl
@[simp] theorem State.writeSig_sigMem (s : State) (i : Nat) (v : Word) : (s.writeSig i v).sigMem = Mem.store s.sigMem i (narrow s.width v.toNat) := rfl
@[simp] theorem State.writeSig_shift (s : State) (i : Nat) (v : Word) : (s.writeSig i v).shift = s.shift := rfl
@[simp] theorem State.writeSig_acc (s : State) (i : Nat) (v : Word) : (s.writeSig i v).acc = s.acc := rfl
@[simp] theorem State.writeSig_result (s : State) (i : Nat) (v : Word) : (s.writeSig i v).result = s.result := rfl
@[simp] theorem State.writeSig_cvalid (s : State) (i : Nat) (v : Word) : (s.writeSig i v).cvalid = s.cvalid := rfl
@[simp] theorem State.writeSig_uvalid (s : State) (i : Nat) (v : Word) : (s.writeSig i v).uvalid = s.uvalid := rfl
@[simp] theorem State.writeSig_done (s : State) (i : Nat) (v : Word) : (s.writeSig i v).done = s.done := rfl
@[simp] theorem State.writeSig_det (s : State) (i : Nat) (v : Word) : (s.writeSig i v).det = s.det := rfl
@[simp] theorem State.writeSig_neg (s : State) (i : Nat) (v : Word) : (s.writeSig i v).neg = s.neg := rfl
@[simp] theorem State.writeSig_err (s : State) (i : Nat) (v : Word) : (s.writeSig i v).err = s.err := rfl
@[simp] theorem State.writeSig_errcode (s : State) (i : Nat) (v : Word) : (s.writeSig i v).errcode = s.errcode := rfl
@[simp] theorem State.writeSig_errwr (s : State) (i : Nat) (v : Word) : (s.writeSig i v).errwr = s.errwr := rfl
@[simp] theorem State.writeSig_errval (s : State) (i : Nat) (v : Word) : (s.writeSig i v).errval = s.errval := rfl
@[simp] theorem State.writeSig_widthCode (s : State) (i : Nat) (v : Word) : (s.writeSig i v).widthCode = s.widthCode := rfl
@[simp] theorem State.writeSig_epoch (s : State) (i : Nat) (v : Word) : (s.writeSig i v).epoch = s.epoch := rfl
@[simp] theorem State.writeSig_script (s : State) (i : Nat) (v : Word) : (s.writeSig i v).script = s.script := rfl
@[simp] theorem State.writeSig_returned (s : State) (i : Nat) (v : Word) : (s.writeSig i v).returned = s.returned := rfl
@[simp] theorem State.writeSig_chipAt (s : State) (i : Nat) (v : Word) (j : Nat) : (s.writeSig i v).chipAt j = s.chipAt j := rfl
@[simp] theorem State.writeSig_unpkAt (s : State) (i : Nat) (v : Word) (j : Nat) : (s.writeSig i v).unpkAt j = s.unpkAt j := rfl
@[simp] theorem State.writeSig_chipValues (s : State) (i : Nat) (v : Word) : (s.writeSig i v).chipValues = s.chipValues := rfl
@[simp] theorem State.writeSig_unpkValues (s : State) (i : Nat) (v : Word) : (s.writeSig i v).unpkValues = s.unpkValues := rfl

/-! `State.setTaps` -/

@[simp] theorem State.setTaps_g1 (s : State) (a b : BitVec 4) : (s.setTaps a b).g1 = s.g1 := rfl
@[simp] theorem State.setTaps_g2 (s : State) (a b : BitVec 4) : (s.setTaps a b).g2 = s.g2 := rfl
@[simp] theorem State.setTaps_t1 (s : State) (a b : BitVec 4) : (s.setTaps a b).t1 = a := rfl
@[simp] theorem State.setTaps_t2 (s : State) (a b : BitVec 4) : (s.setTaps a b).t2 = b := rfl
@[simp] theorem State.setTaps_chipcnt (s : State) (a b : BitVec 4) : (s.setTaps a b).chipcnt = s.chipcnt := rfl
@[simp] theorem State.setTaps_chipMem (s : State) (a b : BitVec 4) : (s.setTaps a b).chipMem = s.chipMem := rfl
@[simp] theorem State.setTaps_unpkMem (s : State) (a b : BitVec 4) : (s.setTaps a b).unpkMem = s.unpkMem := rfl
@[simp] theorem State.setTaps_sigMem (s : State) (a b : BitVec 4) : (s.setTaps a b).sigMem = s.sigMem := rfl
@[simp] theorem State.setTaps_shift (s : State) (a b : BitVec 4) : (s.setTaps a b).shift = s.shift := rfl
@[simp] theorem State.setTaps_acc (s : State) (a b : BitVec 4) : (s.setTaps a b).acc = s.acc := rfl
@[simp] theorem State.setTaps_result (s : State) (a b : BitVec 4) : (s.setTaps a b).result = s.result := rfl
@[simp] theorem State.setTaps_cvalid (s : State) (a b : BitVec 4) : (s.setTaps a b).cvalid = s.cvalid := rfl
@[simp] theorem State.setTaps_uvalid (s : State) (a b : BitVec 4) : (s.setTaps a b).uvalid = s.uvalid := rfl
@[simp] theorem State.setTaps_done (s : State) (a b : BitVec 4) : (s.setTaps a b).done = s.done := rfl
@[simp] theorem State.setTaps_det (s : State) (a b : BitVec 4) : (s.setTaps a b).det = s.det := rfl
@[simp] theorem State.setTaps_neg (s : State) (a b : BitVec 4) : (s.setTaps a b).neg = s.neg := rfl
@[simp] theorem State.setTaps_err (s : State) (a b : BitVec 4) : (s.setTaps a b).err = s.err := rfl
@[simp] theorem State.setTaps_errcode (s : State) (a b : BitVec 4) : (s.setTaps a b).errcode = s.errcode := rfl
@[simp] theorem State.setTaps_errwr (s : State) (a b : BitVec 4) : (s.setTaps a b).errwr = s.errwr := rfl
@[simp] theorem State.setTaps_errval (s : State) (a b : BitVec 4) : (s.setTaps a b).errval = s.errval := rfl
@[simp] theorem State.setTaps_widthCode (s : State) (a b : BitVec 4) : (s.setTaps a b).widthCode = s.widthCode := rfl
@[simp] theorem State.setTaps_epoch (s : State) (a b : BitVec 4) : (s.setTaps a b).epoch = s.epoch := rfl
@[simp] theorem State.setTaps_script (s : State) (a b : BitVec 4) : (s.setTaps a b).script = s.script := rfl
@[simp] theorem State.setTaps_returned (s : State) (a b : BitVec 4) : (s.setTaps a b).returned = s.returned := rfl
@[simp] theorem State.setTaps_sigAt (s : State) (a b : BitVec 4) (j : Nat) : (s.setTaps a b).sigAt j = s.sigAt j := rfl
@[simp] theorem State.setTaps_chipAt (s : State) (a b : BitVec 4) (j : Nat) : (s.setTaps a b).chipAt j = s.chipAt j := rfl
@[simp] theorem State.setTaps_unpkAt (s : State) (a b : BitVec 4) (j : Nat) : (s.setTaps a b).unpkAt j = s.unpkAt j := rfl
@[simp] theorem State.setTaps_sigValues (s : State) (a b : BitVec 4) : (s.setTaps a b).sigValues = s.sigValues := rfl
@[simp] theorem State.setTaps_chipValues (s : State) (a b : BitVec 4) : (s.setTaps a b).chipValues = s.chipValues := rfl
@[simp] theorem State.setTaps_unpkValues (s : State) (a b : BitVec 4) : (s.setTaps a b).unpkValues = s.unpkValues := rfl

/-! `State.setGen` -/

@[simp] theorem State.setGen_g1 (s : State) (a b n : BitVec 10) : (s.setGen a b n).g1 = a := rfl
@[simp] theorem State.setGen_g2 (s : State) (a b n : BitVec 10) : (s.setGen a b n).g2 = b := rfl
@[simp] theorem State.setGen_t1 (s : State) (a b n : BitVec 10) : (s.setGen a b n).t1 = s.t1 := rfl
@[simp] theorem State.setGen_t2 (s : State) (a b n : BitVec 10) : (s.setGen a b n).t2 = s.t2 := rfl
@[simp] theorem State.setGen_chipcnt (s : State) (a b n : BitVec 10) : (s.setGen a b n).chipcnt = n := rfl
@[simp] theorem State.setGen_chipMem (s : State) (a b n : BitVec 10) : (s.setGen a b n).chipMem = s.chipMem := rfl
@[simp] theorem State.setGen_unpkMem (s : State) (a b n : BitVec 10) : (s.setGen a b n).unpkMem = s.unpkMem := rfl
@[simp] theorem State.setGen_sigMem (s : State) (a b n : BitVec 10) : (s.setGen a b n).sigMem = s.sigMem := rfl
@[simp] theorem State.setGen_shift (s : State) (a b n : BitVec 10) : (s.setGen a b n).shift = s.shift := rfl
@[simp] theorem State.setGen_acc (s : State) (a b n : BitVec 10) : (s.setGen a b n).acc = s.acc := rfl
@[simp] theorem State.setGen_result (s : State) (a b n : BitVec 10) : (s.setGen a b n).result = s.result := rfl
@[simp] theorem State.setGen_cvalid (s : State) (a b n : BitVec 10) : (s.setGen a b n).cvalid = s.cvalid := rfl
@[simp] theorem State.setGen_uvalid (s : State) (a b n : BitVec 10) : (s.setGen a b n).uvalid = s.uvalid := rfl
@[simp] theorem State.setGen_done (s : State) (a b n : BitVec 10) : (s.setGen a b n).done = s.done := rfl
@[simp] theorem State.setGen_det (s : State) (a b n : BitVec 10) : (s.setGen a b n).det = s.det := rfl
@[simp] theorem State.setGen_neg (s : State) (a b n : BitVec 10) : (s.setGen a b n).neg = s.neg := rfl
@[simp] theorem State.setGen_err (s : State) (a b n : BitVec 10) : (s.setGen a b n).err = s.err := rfl
@[simp] theorem State.setGen_errcode (s : State) (a b n : BitVec 10) : (s.setGen a b n).errcode = s.errcode := rfl
@[simp] theorem State.setGen_errwr (s : State) (a b n : BitVec 10) : (s.setGen a b n).errwr = s.errwr := rfl
@[simp] theorem State.setGen_errval (s : State) (a b n : BitVec 10) : (s.setGen a b n).errval = s.errval := rfl
@[simp] theorem State.setGen_widthCode (s : State) (a b n : BitVec 10) : (s.setGen a b n).widthCode = s.widthCode := rfl
@[simp] theorem State.setGen_epoch (s : State) (a b n : BitVec 10) : (s.setGen a b n).epoch = s.epoch := rfl
@[simp] theorem State.setGen_script (s : State) (a b n : BitVec 10) : (s.setGen a b n).script = s.script := rfl
@[simp] theorem State.setGen_returned (s : State) (a b n : BitVec 10) : (s.setGen a b n).returned = s.returned := rfl
@[simp] theorem State.setGen_sigAt (s : State) (a b n : BitVec 10) (j : Nat) : (s.setGen a b n).sigAt j = s.sigAt j := rfl
@[simp] theorem State.setGen_chipAt (s : State) (a b n : BitVec 10) (j : Nat) : (s.setGen a b n).chipAt j = s.chipAt j := rfl
@[simp] theorem State.setGen_unpkAt (s : State) (a b n : BitVec 10) (j : Nat) : (s.setGen a b n).unpkAt j = s.unpkAt j := rfl
@[simp] theorem State.setGen_sigValues (s : State) (a b n : BitVec 10) : (s.setGen a b n).sigValues = s.sigValues := rfl
@[simp] theorem State.setGen_chipValues (s : State) (a b n : BitVec 10) : (s.setGen a b n).chipValues = s.chipValues := rfl
@[simp] theorem State.setGen_unpkValues (s : State) (a b n : BitVec 10) : (s.setGen a b n).unpkValues = s.unpkValues := rfl

/-! `State.setValid` -/

@[simp] theorem State.setValid_g1 (s : State) (c u d : Bool) : (s.setValid c u d).g1 = s.g1 := rfl
@[simp] theorem State.setValid_g2 (s : State) (c u d : Bool) : (s.setValid c u d).g2 = s.g2 := rfl
@[simp] theorem State.setValid_t1 (s : State) (c u d : Bool) : (s.setValid c u d).t1 = s.t1 := rfl
@[simp] theorem State.setValid_t2 (s : State) (c u d : Bool) : (s.setValid c u d).t2 = s.t2 := rfl
@[simp] theorem State.setValid_chipcnt (s : State) (c u d : Bool) : (s.setValid c u d).chipcnt = s.chipcnt := rfl
@[simp] theorem State.setValid_chipMem (s : State) (c u d : Bool) : (s.setValid c u d).chipMem = s.chipMem := rfl
@[simp] theorem State.setValid_unpkMem (s : State) (c u d : Bool) : (s.setValid c u d).unpkMem = s.unpkMem := rfl
@[simp] theorem State.setValid_sigMem (s : State) (c u d : Bool) : (s.setValid c u d).sigMem = s.sigMem := rfl
@[simp] theorem State.setValid_shift (s : State) (c u d : Bool) : (s.setValid c u d).shift = s.shift := rfl
@[simp] theorem State.setValid_acc (s : State) (c u d : Bool) : (s.setValid c u d).acc = s.acc := rfl
@[simp] theorem State.setValid_result (s : State) (c u d : Bool) : (s.setValid c u d).result = s.result := rfl
@[simp] theorem State.setValid_cvalid (s : State) (c u d : Bool) : (s.setValid c u d).cvalid = c := rfl
@[simp] theorem State.setValid_uvalid (s : State) (c u d : Bool) : (s.setValid c u d).uvalid = u := rfl
@[simp] theorem State.setValid_done (s : State) (c u d : Bool) : (s.setValid c u d).done = d := rfl
@[simp] theorem State.setValid_det (s : State) (c u d : Bool) : (s.setValid c u d).det = s.det := rfl
@[simp] theorem State.setValid_neg (s : State) (c u d : Bool) : (s.setValid c u d).neg = s.neg := rfl
@[simp] theorem State.setValid_err (s : State) (c u d : Bool) : (s.setValid c u d).err = s.err := rfl
@[simp] theorem State.setValid_errcode (s : State) (c u d : Bool) : (s.setValid c u d).errcode = s.errcode := rfl
@[simp] theorem State.setValid_errwr (s : State) (c u d : Bool) : (s.setValid c u d).errwr = s.errwr := rfl
@[simp] theorem State.setValid_errval (s : State) (c u d : Bool) : (s.setValid c u d).errval = s.errval := rfl
@[simp] theorem State.setValid_widthCode (s : State) (c u d : Bool) : (s.setValid c u d).widthCode = s.widthCode := rfl
@[simp] theorem State.setValid_epoch (s : State) (c u d : Bool) : (s.setValid c u d).epoch = s.epoch := rfl
@[simp] theorem State.setValid_script (s : State) (c u d : Bool) : (s.setValid c u d).script = s.script := rfl
@[simp] theorem State.setValid_returned (s : State) (c u d : Bool) : (s.setValid c u d).returned = s.returned := rfl
@[simp] theorem State.setValid_sigAt (s : State) (c u d : Bool) (j : Nat) : (s.setValid c u d).sigAt j = s.sigAt j := rfl
@[simp] theorem State.setValid_chipAt (s : State) (c u d : Bool) (j : Nat) : (s.setValid c u d).chipAt j = s.chipAt j := rfl
@[simp] theorem State.setValid_unpkAt (s : State) (c u d : Bool) (j : Nat) : (s.setValid c u d).unpkAt j = s.unpkAt j := rfl
@[simp] theorem State.setValid_sigValues (s : State) (c u d : Bool) : (s.setValid c u d).sigValues = s.sigValues := rfl
@[simp] theorem State.setValid_chipValues (s : State) (c u d : Bool) : (s.setValid c u d).chipValues = s.chipValues := rfl
@[simp] theorem State.setValid_unpkValues (s : State) (c u d : Bool) : (s.setValid c u d).unpkValues = s.unpkValues := rfl

/-! `State.setSum` -/

@[simp] theorem State.setSum_g1 (s : State) (k : Nat) (x : Int) : (s.setSum k x).g1 = s.g1 := rfl
@[simp] theorem State.setSum_g2 (s : State) (k : Nat) (x : Int) : (s.setSum k x).g2 = s.g2 := rfl
@[simp] theorem State.setSum_t1 (s : State) (k : Nat) (x : Int) : (s.setSum k x).t1 = s.t1 := rfl
@[simp] theorem State.setSum_t2 (s : State) (k : Nat) (x : Int) : (s.setSum k x).t2 = s.t2 := rfl
@[simp] theorem State.setSum_chipcnt (s : State) (k : Nat) (x : Int) : (s.setSum k x).chipcnt = s.chipcnt := rfl
@[simp] theorem State.setSum_chipMem (s : State) (k : Nat) (x : Int) : (s.setSum k x).chipMem = s.chipMem := rfl
@[simp] theorem State.setSum_unpkMem (s : State) (k : Nat) (x : Int) : (s.setSum k x).unpkMem = s.unpkMem := rfl
@[simp] theorem State.setSum_sigMem (s : State) (k : Nat) (x : Int) : (s.setSum k x).sigMem = s.sigMem := rfl
@[simp] theorem State.setSum_shift (s : State) (k : Nat) (x : Int) : (s.setSum k x).shift = BitVec.ofNat 10 k := rfl
@[simp] theorem State.setSum_acc (s : State) (k : Nat) (x : Int) : (s.setSum k x).acc = narrow (s.width + 10) x := rfl
@[simp] theorem State.setSum_result (s : State) (k : Nat) (x : Int) : (s.setSum k x).result = s.result := rfl
@[simp] theorem State.setSum_cvalid (s : State) (k : Nat) (x : Int) : (s.setSum k x).cvalid = s.cvalid := rfl
@[simp] theorem State.setSum_uvalid (s : State) (k : Nat) (x : Int) : (s.setSum k x).uvalid = s.uvalid := rfl
@[simp] theorem State.setSum_done (s : State) (k : Nat) (x : Int) : (s.setSum k x).done = s.done := rfl
@[simp] theorem State.setSum_det (s : State) (k : Nat) (x : Int) : (s.setSum k x).det = s.det := rfl
@[simp] theorem State.setSum_neg (s : State) (k : Nat) (x : Int) : (s.setSum k x).neg = s.neg := rfl
@[simp] theorem State.setSum_err (s : State) (k : Nat) (x : Int) : (s.setSum k x).err = s.err := rfl
@[simp] theorem State.setSum_errcode (s : State) (k : Nat) (x : Int) : (s.setSum k x).errcode = s.errcode := rfl
@[simp] theorem State.setSum_errwr (s : State) (k : Nat) (x : Int) : (s.setSum k x).errwr = s.errwr := rfl
@[simp] theorem State.setSum_errval (s : State) (k : Nat) (x : Int) : (s.setSum k x).errval = s.errval := rfl
@[simp] theorem State.setSum_widthCode (s : State) (k : Nat) (x : Int) : (s.setSum k x).widthCode = s.widthCode := rfl
@[simp] theorem State.setSum_epoch (s : State) (k : Nat) (x : Int) : (s.setSum k x).epoch = s.epoch := rfl
@[simp] theorem State.setSum_script (s : State) (k : Nat) (x : Int) : (s.setSum k x).script = s.script := rfl
@[simp] theorem State.setSum_returned (s : State) (k : Nat) (x : Int) : (s.setSum k x).returned = s.returned := rfl
@[simp] theorem State.setSum_sigAt (s : State) (k : Nat) (x : Int) (j : Nat) : (s.setSum k x).sigAt j = s.sigAt j := rfl
@[simp] theorem State.setSum_chipAt (s : State) (k : Nat) (x : Int) (j : Nat) : (s.setSum k x).chipAt j = s.chipAt j := rfl
@[simp] theorem State.setSum_unpkAt (s : State) (k : Nat) (x : Int) (j : Nat) : (s.setSum k x).unpkAt j = s.unpkAt j := rfl
@[simp] theorem State.setSum_sigValues (s : State) (k : Nat) (x : Int) : (s.setSum k x).sigValues = s.sigValues := rfl
@[simp] theorem State.setSum_chipValues (s : State) (k : Nat) (x : Int) : (s.setSum k x).chipValues = s.chipValues := rfl
@[simp] theorem State.setSum_unpkValues (s : State) (k : Nat) (x : Int) : (s.setSum k x).unpkValues = s.unpkValues := rfl

/-! `State.setOutcome` -/

@[simp] theorem State.setOutcome_g1 (s : State) (d n : Bool) (r : Int) : (s.setOutcome d n r).g1 = s.g1 := rfl
@[simp] theorem State.setOutcome_g2 (s : State) (d n : Bool) (r : Int) : (s.setOutcome d n r).g2 = s.g2 := rfl
@[simp] theorem State.setOutcome_t1 (s : State) (d n : Bool) (r : Int) : (s.setOutcome d n r).t1 = s.t1 := rfl
@[simp] theorem State.setOutcome_t2 (s : State) (d n : Bool) (r : Int) : (s.setOutcome d n r).t2 = s.t2 := rfl
@[simp] theorem State.setOutcome_chipcnt (s : State) (d n : Bool) (r : Int) : (s.setOutcome d n r).chipcnt = s.chipcnt := rfl
@[simp] theorem State.setOutcome_chipMem (s : State) (d n : Bool) (r : Int) : (s.setOutcome d n r).chipMem = s.chipMem := rfl
@[simp] theorem State.setOutcome_unpkMem (s : State) (d n : Bool) (r : Int) : (s.setOutcome d n r).unpkMem = s.unpkMem := rfl
@[simp] theorem State.setOutcome_sigMem (s : State) (d n : Bool) (r : Int) : (s.setOutcome d n r).sigMem = s.sigMem := rfl
@[simp] theorem State.setOutcome_shift (s : State) (d n : Bool) (r : Int) : (s.setOutcome d n r).shift = s.shift := rfl
@[simp] theorem State.setOutcome_acc (s : State) (d n : Bool) (r : Int) : (s.setOutcome d n r).acc = s.acc := rfl
@[simp] theorem State.setOutcome_result (s : State) (d n : Bool) (r : Int) : (s.setOutcome d n r).result = BitVec.ofInt 16 r := rfl
@[simp] theorem State.setOutcome_cvalid (s : State) (d n : Bool) (r : Int) : (s.setOutcome d n r).cvalid = s.cvalid := rfl
@[simp] theorem State.setOutcome_uvalid (s : State) (d n : Bool) (r : Int) : (s.setOutcome d n r).uvalid = s.uvalid := rfl
@[simp] theorem State.setOutcome_done (s : State) (d n : Bool) (r : Int) : (s.setOutcome d n r).done = true := rfl
@[simp] theorem State.setOutcome_det (s : State) (d n : Bool) (r : Int) : (s.setOutcome d n r).det = d := rfl
@[simp] theorem State.setOutcome_neg (s : State) (d n : Bool) (r : Int) : (s.setOutcome d n r).neg = n := rfl
@[simp] theorem State.setOutcome_err (s : State) (d n : Bool) (r : Int) : (s.setOutcome d n r).err = s.err := rfl
@[simp] theorem State.setOutcome_errcode (s : State) (d n : Bool) (r : Int) : (s.setOutcome d n r).errcode = s.errcode := rfl
@[simp] theorem State.setOutcome_errwr (s : State) (d n : Bool) (r : Int) : (s.setOutcome d n r).errwr = s.errwr := rfl
@[simp] theorem State.setOutcome_errval (s : State) (d n : Bool) (r : Int) : (s.setOutcome d n r).errval = s.errval := rfl
@[simp] theorem State.setOutcome_widthCode (s : State) (d n : Bool) (r : Int) : (s.setOutcome d n r).widthCode = s.widthCode := rfl
@[simp] theorem State.setOutcome_epoch (s : State) (d n : Bool) (r : Int) : (s.setOutcome d n r).epoch = s.epoch := rfl
@[simp] theorem State.setOutcome_script (s : State) (d n : Bool) (r : Int) : (s.setOutcome d n r).script = s.script := rfl
@[simp] theorem State.setOutcome_returned (s : State) (d n : Bool) (r : Int) : (s.setOutcome d n r).returned = s.returned := rfl
@[simp] theorem State.setOutcome_sigAt (s : State) (d n : Bool) (r : Int) (j : Nat) : (s.setOutcome d n r).sigAt j = s.sigAt j := rfl
@[simp] theorem State.setOutcome_chipAt (s : State) (d n : Bool) (r : Int) (j : Nat) : (s.setOutcome d n r).chipAt j = s.chipAt j := rfl
@[simp] theorem State.setOutcome_unpkAt (s : State) (d n : Bool) (r : Int) (j : Nat) : (s.setOutcome d n r).unpkAt j = s.unpkAt j := rfl
@[simp] theorem State.setOutcome_sigValues (s : State) (d n : Bool) (r : Int) : (s.setOutcome d n r).sigValues = s.sigValues := rfl
@[simp] theorem State.setOutcome_chipValues (s : State) (d n : Bool) (r : Int) : (s.setOutcome d n r).chipValues = s.chipValues := rfl
@[simp] theorem State.setOutcome_unpkValues (s : State) (d n : Bool) (r : Int) : (s.setOutcome d n r).unpkValues = s.unpkValues := rfl

/-! `State.resetRegisters` -/

@[simp] theorem State.resetRegisters_g1 (s : State) : (s.resetRegisters).g1 = Config.lfsrPreset := rfl
@[simp] theorem State.resetRegisters_g2 (s : State) : (s.resetRegisters).g2 = Config.lfsrPreset := rfl
@[simp] theorem State.resetRegisters_t1 (s : State) : (s.resetRegisters).t1 = 0 := rfl
@[simp] theorem State.resetRegisters_t2 (s : State) : (s.resetRegisters).t2 = 0 := rfl
@[simp] theorem State.resetRegisters_chipcnt (s : State) : (s.resetRegisters).chipcnt = 0 := rfl
@[simp] theorem State.resetRegisters_chipMem (s : State) : (s.resetRegisters).chipMem = s.chipMem := rfl
@[simp] theorem State.resetRegisters_unpkMem (s : State) : (s.resetRegisters).unpkMem = s.unpkMem := rfl
@[simp] theorem State.resetRegisters_sigMem (s : State) : (s.resetRegisters).sigMem = s.sigMem := rfl
@[simp] theorem State.resetRegisters_shift (s : State) : (s.resetRegisters).shift = 0 := rfl
@[simp] theorem State.resetRegisters_acc (s : State) : (s.resetRegisters).acc = 0 := rfl
@[simp] theorem State.resetRegisters_result (s : State) : (s.resetRegisters).result = BitVec.ofInt 16 Config.sentinel := rfl
@[simp] theorem State.resetRegisters_cvalid (s : State) : (s.resetRegisters).cvalid = false := rfl
@[simp] theorem State.resetRegisters_uvalid (s : State) : (s.resetRegisters).uvalid = false := rfl
@[simp] theorem State.resetRegisters_done (s : State) : (s.resetRegisters).done = false := rfl
@[simp] theorem State.resetRegisters_det (s : State) : (s.resetRegisters).det = false := rfl
@[simp] theorem State.resetRegisters_neg (s : State) : (s.resetRegisters).neg = false := rfl
@[simp] theorem State.resetRegisters_err (s : State) : (s.resetRegisters).err = false := rfl
@[simp] theorem State.resetRegisters_errcode (s : State) : (s.resetRegisters).errcode = 0 := rfl
@[simp] theorem State.resetRegisters_errwr (s : State) : (s.resetRegisters).errwr = false := rfl
@[simp] theorem State.resetRegisters_errval (s : State) : (s.resetRegisters).errval = 0 := rfl
@[simp] theorem State.resetRegisters_widthCode (s : State) : (s.resetRegisters).widthCode = s.widthCode := rfl
@[simp] theorem State.resetRegisters_epoch (s : State) : (s.resetRegisters).epoch = s.epoch := rfl
@[simp] theorem State.resetRegisters_script (s : State) : (s.resetRegisters).script = s.script := rfl
@[simp] theorem State.resetRegisters_returned (s : State) : (s.resetRegisters).returned = s.returned := rfl
@[simp] theorem State.resetRegisters_sigAt (s : State) (j : Nat) : (s.resetRegisters).sigAt j = s.sigAt j := rfl
@[simp] theorem State.resetRegisters_chipAt (s : State) (j : Nat) : (s.resetRegisters).chipAt j = s.chipAt j := rfl
@[simp] theorem State.resetRegisters_unpkAt (s : State) (j : Nat) : (s.resetRegisters).unpkAt j = s.unpkAt j := rfl
@[simp] theorem State.resetRegisters_sigValues (s : State) : (s.resetRegisters).sigValues = s.sigValues := rfl
@[simp] theorem State.resetRegisters_chipValues (s : State) : (s.resetRegisters).chipValues = s.chipValues := rfl
@[simp] theorem State.resetRegisters_unpkValues (s : State) : (s.resetRegisters).unpkValues = s.unpkValues := rfl

/-! `State.forgetMemories` -/

@[simp] theorem State.forgetMemories_g1 (s : State) : (s.forgetMemories).g1 = s.g1 := rfl
@[simp] theorem State.forgetMemories_g2 (s : State) : (s.forgetMemories).g2 = s.g2 := rfl
@[simp] theorem State.forgetMemories_t1 (s : State) : (s.forgetMemories).t1 = s.t1 := rfl
@[simp] theorem State.forgetMemories_t2 (s : State) : (s.forgetMemories).t2 = s.t2 := rfl
@[simp] theorem State.forgetMemories_chipcnt (s : State) : (s.forgetMemories).chipcnt = s.chipcnt := rfl
@[simp] theorem State.forgetMemories_chipMem (s : State) : (s.forgetMemories).chipMem = [] := rfl
@[simp] theorem State.forgetMemories_unpkMem (s : State) : (s.forgetMemories).unpkMem = [] := rfl
@[simp] theorem State.forgetMemories_sigMem (s : State) : (s.forgetMemories).sigMem = [] := rfl
@[simp] theorem State.forgetMemories_shift (s : State) : (s.forgetMemories).shift = s.shift := rfl
@[simp] theorem State.forgetMemories_acc (s : State) : (s.forgetMemories).acc = s.acc := rfl
@[simp] theorem State.forgetMemories_result (s : State) : (s.forgetMemories).result = s.result := rfl
@[simp] theorem State.forgetMemories_cvalid (s : State) : (s.forgetMemories).cvalid = s.cvalid := rfl
@[simp] theorem State.forgetMemories_uvalid (s : State) : (s.forgetMemories).uvalid = s.uvalid := rfl
@[simp] theorem State.forgetMemories_done (s : State) : (s.forgetMemories).done = s.done := rfl
@[simp] theorem State.forgetMemories_det (s : State) : (s.forgetMemories).det = s.det := rfl
@[simp] theorem State.forgetMemories_neg (s : State) : (s.forgetMemories).neg = s.neg := rfl
@[simp] theorem State.forgetMemories_err (s : State) : (s.forgetMemories).err = s.err := rfl
@[simp] theorem State.forgetMemories_errcode (s : State) : (s.forgetMemories).errcode = s.errcode := rfl
@[simp] theorem State.forgetMemories_errwr (s : State) : (s.forgetMemories).errwr = s.errwr := rfl
@[simp] theorem State.forgetMemories_errval (s : State) : (s.forgetMemories).errval = s.errval := rfl
@[simp] theorem State.forgetMemories_widthCode (s : State) : (s.forgetMemories).widthCode = s.widthCode := rfl
@[simp] theorem State.forgetMemories_epoch (s : State) : (s.forgetMemories).epoch = s.epoch.next := rfl
@[simp] theorem State.forgetMemories_script (s : State) : (s.forgetMemories).script = s.script := rfl
@[simp] theorem State.forgetMemories_returned (s : State) : (s.forgetMemories).returned = s.returned := rfl

/-! `State.hardReset` -/

@[simp] theorem State.hardReset_g1 (s : State) : (s.hardReset).g1 = Config.lfsrPreset := rfl
@[simp] theorem State.hardReset_g2 (s : State) : (s.hardReset).g2 = Config.lfsrPreset := rfl
@[simp] theorem State.hardReset_t1 (s : State) : (s.hardReset).t1 = 0 := rfl
@[simp] theorem State.hardReset_t2 (s : State) : (s.hardReset).t2 = 0 := rfl
@[simp] theorem State.hardReset_chipcnt (s : State) : (s.hardReset).chipcnt = 0 := rfl
@[simp] theorem State.hardReset_chipMem (s : State) : (s.hardReset).chipMem = [] := rfl
@[simp] theorem State.hardReset_unpkMem (s : State) : (s.hardReset).unpkMem = [] := rfl
@[simp] theorem State.hardReset_sigMem (s : State) : (s.hardReset).sigMem = [] := rfl
@[simp] theorem State.hardReset_shift (s : State) : (s.hardReset).shift = 0 := rfl
@[simp] theorem State.hardReset_acc (s : State) : (s.hardReset).acc = 0 := rfl
@[simp] theorem State.hardReset_result (s : State) : (s.hardReset).result = BitVec.ofInt 16 Config.sentinel := rfl
@[simp] theorem State.hardReset_cvalid (s : State) : (s.hardReset).cvalid = false := rfl
@[simp] theorem State.hardReset_uvalid (s : State) : (s.hardReset).uvalid = false := rfl
@[simp] theorem State.hardReset_done (s : State) : (s.hardReset).done = false := rfl
@[simp] theorem State.hardReset_det (s : State) : (s.hardReset).det = false := rfl
@[simp] theorem State.hardReset_neg (s : State) : (s.hardReset).neg = false := rfl
@[simp] theorem State.hardReset_err (s : State) : (s.hardReset).err = false := rfl
@[simp] theorem State.hardReset_errcode (s : State) : (s.hardReset).errcode = 0 := rfl
@[simp] theorem State.hardReset_errwr (s : State) : (s.hardReset).errwr = false := rfl
@[simp] theorem State.hardReset_errval (s : State) : (s.hardReset).errval = 0 := rfl
@[simp] theorem State.hardReset_widthCode (s : State) : (s.hardReset).widthCode = s.widthCode := rfl
@[simp] theorem State.hardReset_epoch (s : State) : (s.hardReset).epoch = s.epoch.next := rfl
@[simp] theorem State.hardReset_script (s : State) : (s.hardReset).script = s.script := rfl
@[simp] theorem State.hardReset_returned (s : State) : (s.hardReset).returned = s.returned := rfl

/-! `State.answer` -/

@[simp] theorem State.answer_g1 (s : State) (w : Word) : (s.answer w).g1 = s.g1 := rfl
@[simp] theorem State.answer_g2 (s : State) (w : Word) : (s.answer w).g2 = s.g2 := rfl
@[simp] theorem State.answer_t1 (s : State) (w : Word) : (s.answer w).t1 = s.t1 := rfl
@[simp] theorem State.answer_t2 (s : State) (w : Word) : (s.answer w).t2 = s.t2 := rfl
@[simp] theorem State.answer_chipcnt (s : State) (w : Word) : (s.answer w).chipcnt = s.chipcnt := rfl
@[simp] theorem State.answer_chipMem (s : State) (w : Word) : (s.answer w).chipMem = s.chipMem := rfl
@[simp] theorem State.answer_unpkMem (s : State) (w : Word) : (s.answer w).unpkMem = s.unpkMem := rfl
@[simp] theorem State.answer_sigMem (s : State) (w : Word) : (s.answer w).sigMem = s.sigMem := rfl
@[simp] theorem State.answer_shift (s : State) (w : Word) : (s.answer w).shift = s.shift := rfl
@[simp] theorem State.answer_acc (s : State) (w : Word) : (s.answer w).acc = s.acc := rfl
@[simp] theorem State.answer_result (s : State) (w : Word) : (s.answer w).result = s.result := rfl
@[simp] theorem State.answer_cvalid (s : State) (w : Word) : (s.answer w).cvalid = s.cvalid := rfl
@[simp] theorem State.answer_uvalid (s : State) (w : Word) : (s.answer w).uvalid = s.uvalid := rfl
@[simp] theorem State.answer_done (s : State) (w : Word) : (s.answer w).done = s.done := rfl
@[simp] theorem State.answer_det (s : State) (w : Word) : (s.answer w).det = s.det := rfl
@[simp] theorem State.answer_neg (s : State) (w : Word) : (s.answer w).neg = s.neg := rfl
@[simp] theorem State.answer_err (s : State) (w : Word) : (s.answer w).err = s.err := rfl
@[simp] theorem State.answer_errcode (s : State) (w : Word) : (s.answer w).errcode = s.errcode := rfl
@[simp] theorem State.answer_errwr (s : State) (w : Word) : (s.answer w).errwr = s.errwr := rfl
@[simp] theorem State.answer_errval (s : State) (w : Word) : (s.answer w).errval = s.errval := rfl
@[simp] theorem State.answer_widthCode (s : State) (w : Word) : (s.answer w).widthCode = s.widthCode := rfl
@[simp] theorem State.answer_epoch (s : State) (w : Word) : (s.answer w).epoch = s.epoch := rfl
@[simp] theorem State.answer_script (s : State) (w : Word) : (s.answer w).script = s.script := rfl
@[simp] theorem State.answer_returned (s : State) (w : Word) : (s.answer w).returned = w :: s.returned := rfl
@[simp] theorem State.answer_sigAt (s : State) (w : Word) (j : Nat) : (s.answer w).sigAt j = s.sigAt j := rfl
@[simp] theorem State.answer_chipAt (s : State) (w : Word) (j : Nat) : (s.answer w).chipAt j = s.chipAt j := rfl
@[simp] theorem State.answer_unpkAt (s : State) (w : Word) (j : Nat) : (s.answer w).unpkAt j = s.unpkAt j := rfl
@[simp] theorem State.answer_sigValues (s : State) (w : Word) : (s.answer w).sigValues = s.sigValues := rfl
@[simp] theorem State.answer_chipValues (s : State) (w : Word) : (s.answer w).chipValues = s.chipValues := rfl
@[simp] theorem State.answer_unpkValues (s : State) (w : Word) : (s.answer w).unpkValues = s.unpkValues := rfl

/-! `State.setScript` -/

@[simp] theorem State.setScript_g1 (s : State) (acts : List HostAction) : (s.setScript acts).g1 = s.g1 := rfl
@[simp] theorem State.setScript_g2 (s : State) (acts : List HostAction) : (s.setScript acts).g2 = s.g2 := rfl
@[simp] theorem State.setScript_t1 (s : State) (acts : List HostAction) : (s.setScript acts).t1 = s.t1 := rfl
@[simp] theorem State.setScript_t2 (s : State) (acts : List HostAction) : (s.setScript acts).t2 = s.t2 := rfl
@[simp] theorem State.setScript_chipcnt (s : State) (acts : List HostAction) : (s.setScript acts).chipcnt = s.chipcnt := rfl
@[simp] theorem State.setScript_chipMem (s : State) (acts : List HostAction) : (s.setScript acts).chipMem = s.chipMem := rfl
@[simp] theorem State.setScript_unpkMem (s : State) (acts : List HostAction) : (s.setScript acts).unpkMem = s.unpkMem := rfl
@[simp] theorem State.setScript_sigMem (s : State) (acts : List HostAction) : (s.setScript acts).sigMem = s.sigMem := rfl
@[simp] theorem State.setScript_shift (s : State) (acts : List HostAction) : (s.setScript acts).shift = s.shift := rfl
@[simp] theorem State.setScript_acc (s : State) (acts : List HostAction) : (s.setScript acts).acc = s.acc := rfl
@[simp] theorem State.setScript_result (s : State) (acts : List HostAction) : (s.setScript acts).result = s.result := rfl
@[simp] theorem State.setScript_cvalid (s : State) (acts : List HostAction) : (s.setScript acts).cvalid = s.cvalid := rfl
@[simp] theorem State.setScript_uvalid (s : State) (acts : List HostAction) : (s.setScript acts).uvalid = s.uvalid := rfl
@[simp] theorem State.setScript_done (s : State) (acts : List HostAction) : (s.setScript acts).done = s.done := rfl
@[simp] theorem State.setScript_det (s : State) (acts : List HostAction) : (s.setScript acts).det = s.det := rfl
@[simp] theorem State.setScript_neg (s : State) (acts : List HostAction) : (s.setScript acts).neg = s.neg := rfl
@[simp] theorem State.setScript_err (s : State) (acts : List HostAction) : (s.setScript acts).err = s.err := rfl
@[simp] theorem State.setScript_errcode (s : State) (acts : List HostAction) : (s.setScript acts).errcode = s.errcode := rfl
@[simp] theorem State.setScript_errwr (s : State) (acts : List HostAction) : (s.setScript acts).errwr = s.errwr := rfl
@[simp] theorem State.setScript_errval (s : State) (acts : List HostAction) : (s.setScript acts).errval = s.errval := rfl
@[simp] theorem State.setScript_widthCode (s : State) (acts : List HostAction) : (s.setScript acts).widthCode = s.widthCode := rfl
@[simp] theorem State.setScript_epoch (s : State) (acts : List HostAction) : (s.setScript acts).epoch = s.epoch := rfl
@[simp] theorem State.setScript_script (s : State) (acts : List HostAction) : (s.setScript acts).script = acts := rfl
@[simp] theorem State.setScript_returned (s : State) (acts : List HostAction) : (s.setScript acts).returned = s.returned := rfl
@[simp] theorem State.setScript_sigAt (s : State) (acts : List HostAction) (j : Nat) : (s.setScript acts).sigAt j = s.sigAt j := rfl
@[simp] theorem State.setScript_chipAt (s : State) (acts : List HostAction) (j : Nat) : (s.setScript acts).chipAt j = s.chipAt j := rfl
@[simp] theorem State.setScript_unpkAt (s : State) (acts : List HostAction) (j : Nat) : (s.setScript acts).unpkAt j = s.unpkAt j := rfl
@[simp] theorem State.setScript_sigValues (s : State) (acts : List HostAction) : (s.setScript acts).sigValues = s.sigValues := rfl
@[simp] theorem State.setScript_chipValues (s : State) (acts : List HostAction) : (s.setScript acts).chipValues = s.chipValues := rfl
@[simp] theorem State.setScript_unpkValues (s : State) (acts : List HostAction) : (s.setScript acts).unpkValues = s.unpkValues := rfl

/-! `State.recordError` -/

@[simp] theorem State.recordError_g1 (s : State) (code : BitVec 4) (wr : Bool) (val : BitVec 16) : (s.recordError code wr val).g1 = s.g1 := rfl
@[simp] theorem State.recordError_g2 (s : State) (code : BitVec 4) (wr : Bool) (val : BitVec 16) : (s.recordError code wr val).g2 = s.g2 := rfl
@[simp] theorem State.recordError_t1 (s : State) (code : BitVec 4) (wr : Bool) (val : BitVec 16) : (s.recordError code wr val).t1 = s.t1 := rfl
@[simp] theorem State.recordError_t2 (s : State) (code : BitVec 4) (wr : Bool) (val : BitVec 16) : (s.recordError code wr val).t2 = s.t2 := rfl
@[simp] theorem State.recordError_chipcnt (s : State) (code : BitVec 4) (wr : Bool) (val : BitVec 16) : (s.recordError code wr val).chipcnt = s.chipcnt := rfl
@[simp] theorem State.recordError_chipMem (s : State) (code : BitVec 4) (wr : Bool) (val : BitVec 16) : (s.recordError code wr val).chipMem = s.chipMem := rfl
@[simp] theorem State.recordError_unpkMem (s : State) (code : BitVec 4) (wr : Bool) (val : BitVec 16) : (s.recordError code wr val).unpkMem = s.unpkMem := rfl
@[simp] theorem State.recordError_sigMem (s : State) (code : BitVec 4) (wr : Bool) (val : BitVec 16) : (s.recordError code wr val).sigMem = s.sigMem := rfl
@[simp] theorem State.recordError_shift (s : State) (code : BitVec 4) (wr : Bool) (val : BitVec 16) : (s.recordError code wr val).shift = s.shift := rfl
@[simp] theorem State.recordError_acc (s : State) (code : BitVec 4) (wr : Bool) (val : BitVec 16) : (s.recordError code wr val).acc = s.acc := rfl
@[simp] theorem State.recordError_result (s : State) (code : BitVec 4) (wr : Bool) (val : BitVec 16) : (s.recordError code wr val).result = s.result := rfl
@[simp] theorem State.recordError_cvalid (s : State) (code : BitVec 4) (wr : Bool) (val : BitVec 16) : (s.recordError code wr val).cvalid = s.cvalid := rfl
@[simp] theorem State.recordError_uvalid (s : State) (code : BitVec 4) (wr : Bool) (val : BitVec 16) : (s.recordError code wr val).uvalid = s.uvalid := rfl
@[simp] theorem State.recordError_done (s : State) (code : BitVec 4) (wr : Bool) (val : BitVec 16) : (s.recordError code wr val).done = s.done := rfl
@[simp] theorem State.recordError_det (s : State) (code : BitVec 4) (wr : Bool) (val : BitVec 16) : (s.recordError code wr val).det = s.det := rfl
@[simp] theorem State.recordError_neg (s : State) (code : BitVec 4) (wr : Bool) (val : BitVec 16) : (s.recordError code wr val).neg = s.neg := rfl
@[simp] theorem State.recordError_err (s : State) (code : BitVec 4) (wr : Bool) (val : BitVec 16) : (s.recordError code wr val).err = true := rfl
@[simp] theorem State.recordError_errcode (s : State) (code : BitVec 4) (wr : Bool) (val : BitVec 16) : (s.recordError code wr val).errcode = code := rfl
@[simp] theorem State.recordError_errwr (s : State) (code : BitVec 4) (wr : Bool) (val : BitVec 16) : (s.recordError code wr val).errwr = wr := rfl
@[simp] theorem State.recordError_errval (s : State) (code : BitVec 4) (wr : Bool) (val : BitVec 16) : (s.recordError code wr val).errval = val := rfl
@[simp] theorem State.recordError_widthCode (s : State) (code : BitVec 4) (wr : Bool) (val : BitVec 16) : (s.recordError code wr val).widthCode = s.widthCode := rfl
@[simp] theorem State.recordError_epoch (s : State) (code : BitVec 4) (wr : Bool) (val : BitVec 16) : (s.recordError code wr val).epoch = s.epoch := rfl
@[simp] theorem State.recordError_script (s : State) (code : BitVec 4) (wr : Bool) (val : BitVec 16) : (s.recordError code wr val).script = s.script := rfl
@[simp] theorem State.recordError_returned (s : State) (code : BitVec 4) (wr : Bool) (val : BitVec 16) : (s.recordError code wr val).returned = s.returned := rfl
@[simp] theorem State.recordError_sigAt (s : State) (code : BitVec 4) (wr : Bool) (val : BitVec 16) (j : Nat) : (s.recordError code wr val).sigAt j = s.sigAt j := rfl
@[simp] theorem State.recordError_chipAt (s : State) (code : BitVec 4) (wr : Bool) (val : BitVec 16) (j : Nat) : (s.recordError code wr val).chipAt j = s.chipAt j := rfl
@[simp] theorem State.recordError_unpkAt (s : State) (code : BitVec 4) (wr : Bool) (val : BitVec 16) (j : Nat) : (s.recordError code wr val).unpkAt j = s.unpkAt j := rfl
@[simp] theorem State.recordError_sigValues (s : State) (code : BitVec 4) (wr : Bool) (val : BitVec 16) : (s.recordError code wr val).sigValues = s.sigValues := rfl
@[simp] theorem State.recordError_chipValues (s : State) (code : BitVec 4) (wr : Bool) (val : BitVec 16) : (s.recordError code wr val).chipValues = s.chipValues := rfl
@[simp] theorem State.recordError_unpkValues (s : State) (code : BitVec 4) (wr : Bool) (val : BitVec 16) : (s.recordError code wr val).unpkValues = s.unpkValues := rfl

/-! `State.clearError` -/

@[simp] theorem State.clearError_g1 (s : State) : (s.clearError).g1 = s.g1 := rfl
@[simp] theorem State.clearError_g2 (s : State) : (s.clearError).g2 = s.g2 := rfl
@[simp] theorem State.clearError_t1 (s : State) : (s.clearError).t1 = s.t1 := rfl
@[simp] theorem State.clearError_t2 (s : State) : (s.clearError).t2 = s.t2 := rfl
@[simp] theorem State.clearError_chipcnt (s : State) : (s.clearError).chipcnt = s.chipcnt := rfl
@[simp] theorem State.clearError_chipMem (s : State) : (s.clearError).chipMem = s.chipMem := rfl
@[simp] theorem State.clearError_unpkMem (s : State) : (s.clearError).unpkMem = s.unpkMem := rfl
@[simp] theorem State.clearError_sigMem (s : State) : (s.clearError).sigMem = s.sigMem := rfl
@[simp] theorem State.clearError_shift (s : State) : (s.clearError).shift = s.shift := rfl
@[simp] theorem State.clearError_acc (s : State) : (s.clearError).acc = s.acc := rfl
@[simp] theorem State.clearError_result (s : State) : (s.clearError).result = s.result := rfl
@[simp] theorem State.clearError_cvalid (s : State) : (s.clearError).cvalid = s.cvalid := rfl
@[simp] theorem State.clearError_uvalid (s : State) : (s.clearError).uvalid = s.uvalid := rfl
@[simp] theorem State.clearError_done (s : State) : (s.clearError).done = s.done := rfl
@[simp] theorem State.clearError_det (s : State) : (s.clearError).det = s.det := rfl
@[simp] theorem State.clearError_neg (s : State) : (s.clearError).neg = s.neg := rfl
@[simp] theorem State.clearError_err (s : State) : (s.clearError).err = false := rfl
@[simp] theorem State.clearError_errcode (s : State) : (s.clearError).errcode = 0 := rfl
@[simp] theorem State.clearError_errwr (s : State) : (s.clearError).errwr = false := rfl
@[simp] theorem State.clearError_errval (s : State) : (s.clearError).errval = 0 := rfl
@[simp] theorem State.clearError_widthCode (s : State) : (s.clearError).widthCode = s.widthCode := rfl
@[simp] theorem State.clearError_epoch (s : State) : (s.clearError).epoch = s.epoch := rfl
@[simp] theorem State.clearError_script (s : State) : (s.clearError).script = s.script := rfl
@[simp] theorem State.clearError_returned (s : State) : (s.clearError).returned = s.returned := rfl
@[simp] theorem State.clearError_sigAt (s : State) (j : Nat) : (s.clearError).sigAt j = s.sigAt j := rfl
@[simp] theorem State.clearError_chipAt (s : State) (j : Nat) : (s.clearError).chipAt j = s.chipAt j := rfl
@[simp] theorem State.clearError_unpkAt (s : State) (j : Nat) : (s.clearError).unpkAt j = s.unpkAt j := rfl
@[simp] theorem State.clearError_sigValues (s : State) : (s.clearError).sigValues = s.sigValues := rfl
@[simp] theorem State.clearError_chipValues (s : State) : (s.clearError).chipValues = s.chipValues := rfl
@[simp] theorem State.clearError_unpkValues (s : State) : (s.clearError).unpkValues = s.unpkValues := rfl

end Sys2Proof.Machine
end

