-- ==== Sys2Proof/Laws/Correlator.lean ====
section
/-!
SUPPORT. The unpacker and the correlator: the memories read as lists, what an unpack leaves, and the one lemma that says how a search
can end (spec/41_unpacker.md R111; spec/42_correlator.md R120, R121, R123).
-/

namespace Sys2Proof.Machine

open Sys2Proof.Safety

/-! ### The memories as lists -/

@[simp] theorem State.length_sigValues (s : State) : s.sigValues.length = 1023 := Mem.length_values ..

@[simp] theorem State.length_chipValues (s : State) : s.chipValues.length = 1023 := Mem.length_values ..

@[simp] theorem State.length_unpkValues (s : State) : s.unpkValues.length = 1023 := Mem.length_values ..

theorem State.sigValues_getElem? {s : State} (h : MemWf s) (i : Nat) :
    s.sigValues[i]? = if i < 1023 then some (s.sigAt i) else none := by
  rw [State.sigValues, Mem.values_getElem? _ _ _ _ h.2.2]
  simp [State.sigAt]

theorem State.chipValues_getElem? {s : State} (h : MemWf s) (i : Nat) :
    s.chipValues[i]? = if i < 1023 then some (s.chipAt i) else none := by
  rw [State.chipValues, Mem.values_getElem? _ _ _ _ h.1]
  simp [State.chipAt]

theorem State.unpkValues_getElem? {s : State} (h : MemWf s) (i : Nat) :
    s.unpkValues[i]? = if i < 1023 then some (s.unpkAt i) else none := by
  rw [State.unpkValues, Mem.values_getElem? _ _ _ _ h.2.1]
  simp [State.unpkAt]

/-! ### Unpacking -/

/-- The two chip values as integers (R111). -/
theorem chipValue_toInt (p : Bool) : (chipValue p).toInt = 1 - 2 * (p.toNat : Int) := by
  cases p <;> decide

/-- What an unpack leaves in UNPK. -/
theorem unpackAll_unpkAt {s : State} (h : MemWf s) (i : Nat) :
    (unpackAll s).unpkAt i = if i < 1023 then chipValue (s.chipAt i) else s.unpkAt i := by
  simp only [unpackAll, State.unpkAt, State.fillUnpk_unpkMem, State.fillUnpk_epoch, Mem.find_fill, List.length_map,
    State.length_chipValues, Nat.zero_le, true_and, Nat.zero_add, Nat.sub_zero, List.getElem?_map, State.chipValues_getElem? h]
  split <;> simp

/-- An unpack keeps the memories in canonical form. -/
theorem unpackAll_memWf {s : State} (h : MemWf s) : MemWf (unpackAll s) :=
  ⟨h.1, Mem.wf_fill _ h.2.1 (by simp), h.2.2⟩

/-! ### Searching -/

/-- SHIFT and ACC written twice hold what was written last. -/
@[simp] theorem State.setSum_setSum (s : State) (k k' : Nat) (x x' : Int) : (s.setSum k x).setSum k' x' = s.setSum k' x' := rfl

/-- A sum does not depend on SHIFT and ACC. -/
@[simp] theorem corrSum_setSum (s : State) (k j : Nat) (x : Int) : corrSum (s.setSum k x) j = corrSum s j := by
  simp only [corrSum]; rfl

/-- ACC after shift j has been evaluated. -/
def accAt (s : State) (j : Nat) : Int :=
  narrow (s.width + 10) (corrSum s j)

/-- One shift of a scan. -/
theorem searchFrom_succ (n k : Nat) (s : State) :
    searchFrom (n + 1) k s =
      if qualifies (accAt s k) then detected k (s.setSum k (corrSum s k)) else searchFrom n (k + 1) (s.setSum k (corrSum s k)) := rfl

/-- ACC after a shift does not depend on SHIFT and ACC before it. -/
@[simp] theorem accAt_setSum (s : State) (k j : Nat) (x : Int) : accAt (s.setSum k x) j = accAt s j := by
  simp only [accAt, corrSum_setSum]; rfl

/-- How a scan of shifts k, ..., k + n ends: at the first shift that qualifies, or after the last with none. -/
theorem searchFrom_cases (n k : Nat) (s : State) :
    (∃ j, k ≤ j ∧ j < k + (n + 1) ∧ qualifies (accAt s j) = true ∧ (∀ i, k ≤ i → i < j → qualifies (accAt s i) = false) ∧
        searchFrom (n + 1) k s = detected j (s.setSum j (corrSum s j))) ∨
      ((∀ i, k ≤ i → i < k + (n + 1) → qualifies (accAt s i) = false) ∧
        searchFrom (n + 1) k s = notDetected (s.setSum (k + n) (corrSum s (k + n)))) := by
  induction n generalizing k s with
  | zero =>
    rw [searchFrom_succ]
    by_cases hq : qualifies (accAt s k) = true
    · exact .inl ⟨k, le_rfl, by omega, hq, fun i _ _ => by omega, by rw [if_pos hq]⟩
    · refine .inr ⟨fun i _ _ => ?_, by rw [if_neg hq, Nat.add_zero]; rfl⟩
      obtain rfl : i = k := by omega
      simpa using hq
  | succ n ih =>
    rw [searchFrom_succ]
    by_cases hq : qualifies (accAt s k) = true
    · exact .inl ⟨k, le_rfl, by omega, hq, fun i _ _ => by omega, by rw [if_pos hq]⟩
    · have hk : qualifies (accAt s k) = false := by simpa using hq
      rw [if_neg hq]
      rcases ih (k + 1) (s.setSum k (corrSum s k)) with ⟨j, h1, h2, h3, h4, h5⟩ | ⟨h1, h2⟩
      · refine .inl ⟨j, by omega, by omega, by simpa using h3, fun i hi hij => ?_, by simpa using h5⟩
        rcases Nat.eq_or_lt_of_le hi with rfl | hlt
        · exact hk
        · simpa using h4 i hlt hij
      · refine .inr ⟨fun i hi hin => ?_, ?_⟩
        · rcases Nat.eq_or_lt_of_le hi with rfl | hlt
          · exact hk
          · simpa using h1 i hlt (by omega)
        · simpa [show k + 1 + n = k + (n + 1) by omega] using h2

/-- How a search ends (R120, R123). -/
theorem search_cases (s : State) :
    (∃ j, j < 1023 ∧ qualifies (accAt s j) = true ∧ (∀ i, i < j → qualifies (accAt s i) = false) ∧
        search s = detected j (s.setSum j (corrSum s j))) ∨
      ((∀ i, i < 1023 → qualifies (accAt s i) = false) ∧ search s = notDetected (s.setSum 1022 (corrSum s 1022))) := by
  rcases searchFrom_cases 1022 0 s with ⟨j, -, h2, h3, h4, h5⟩ | ⟨h1, h2⟩
  · exact .inl ⟨j, by omega, h3, fun i hi => h4 i (Nat.zero_le i) hi, by rw [search]; exact h5⟩
  · exact .inr ⟨fun i hi => h1 i (Nat.zero_le i) (by omega), by rw [Nat.zero_add] at h2; rw [search]; exact h2⟩

/-- How a search ends, register by register (R120, R124, R125). -/
theorem search_outcome (s : State) :
    (∃ j, j < 1023 ∧ qualifies (accAt s j) = true ∧ (∀ i, i < j → qualifies (accAt s i) = false) ∧
        (search s).shift = BitVec.ofNat 10 j ∧ (search s).acc = accAt s j ∧ (search s).det = true ∧
        (search s).neg = negFlag (accAt s j) ∧ (search s).result = BitVec.ofInt 16 (signedShift j (accAt s j))) ∨
      ((∀ i, i < 1023 → qualifies (accAt s i) = false) ∧
        (search s).shift = BitVec.ofNat 10 1022 ∧ (search s).acc = accAt s 1022 ∧ (search s).det = false ∧ (search s).neg = false ∧
        (search s).result = BitVec.ofInt 16 Config.sentinel) := by
  rcases search_cases s with ⟨j, hj, hq, hn, h⟩ | ⟨hn, h⟩
  · refine .inl ⟨j, hj, hq, hn, ?_⟩
    rw [h, detected]
    simp only [State.setOutcome_shift, State.setOutcome_acc, State.setOutcome_det, State.setOutcome_neg, State.setOutcome_result,
      State.setSum_shift, State.setSum_acc, accAt, and_self]
  · refine .inr ⟨hn, ?_⟩
    rw [h, notDetected]
    simp only [State.setOutcome_shift, State.setOutcome_acc, State.setOutcome_det, State.setOutcome_neg, State.setOutcome_result,
      State.setSum_shift, State.setSum_acc, accAt, and_self]

/-- The sum of a shift depends on the sample width, the free values' epoch, SIG and UNPK only. -/
theorem corrSum_congr {s t : State} (hw : t.widthCode = s.widthCode) (he : t.epoch = s.epoch) (hs : t.sigMem = s.sigMem)
    (hu : t.unpkMem = s.unpkMem) (k : Nat) : corrSum t k = corrSum s k ∧ accAt t k = accAt s k := by
  have h : corrSum t k = corrSum s k := by
    simp only [corrSum, State.sigValues, State.unpkValues, hw, he, hs, hu]
  exact ⟨h, by simp only [accAt, h, State.width, hw]⟩

/-- Two states with the same sample width, epoch, SIG and UNPK end a search with the same writes. -/
theorem search_agree {s t : State} (hw : t.widthCode = s.widthCode) (he : t.epoch = s.epoch) (hs : t.sigMem = s.sigMem)
    (hu : t.unpkMem = s.unpkMem) :
    ∃ (k : Nat) (x : Int) (d n : Bool) (r : Int),
      search s = (s.setSum k x).setOutcome d n r ∧ search t = (t.setSum k x).setOutcome d n r := by
  have hc := corrSum_congr hw he hs hu
  have hacc : ∀ k, (t.setSum k (corrSum s k)).acc = (s.setSum k (corrSum s k)).acc := fun k => by
    rw [State.setSum_acc, State.setSum_acc, State.width, State.width, hw]
  rcases search_cases s with ⟨j, hj, hq, hn, h⟩ | ⟨hn, h⟩ <;> rcases search_cases t with ⟨j', hj', hq', hn', h'⟩ | ⟨hn', h'⟩
  · obtain rfl : j = j' := by
      rcases Nat.lt_trichotomy j j' with hl | he | hl
      · have := hn' j hl; rw [(hc j).2, hq] at this; cases this
      · exact he
      · have := hn j' hl; rw [← (hc j').2, hq'] at this; cases this
    refine ⟨j, corrSum s j, true, _, _, h, ?_⟩
    rw [h', (hc j).1, detected, hacc]
  · have := hn' j hj; rw [(hc j).2, hq] at this; cases this
  · have := hn j' hj'; rw [← (hc j').2, hq'] at this; cases this
  · exact ⟨1022, corrSum s 1022, false, false, _, h, by rw [h', (hc 1022).1]; rfl⟩

/-! ### What a search leaves, field by field -/

/-- Everything a search can write (R120). -/
theorem search_eq (s : State) :
    ∃ (k : Nat) (x : Int) (d n : Bool) (r : Int), search s = (s.setSum k x).setOutcome d n r := by
  rcases search_cases s with ⟨j, -, -, -, h⟩ | ⟨-, h⟩
  · exact ⟨j, corrSum s j, true, _, _, h⟩
  · exact ⟨1022, corrSum s 1022, false, false, _, h⟩

@[simp] theorem search_done (s : State) : (search s).done = true := by
  obtain ⟨k, x, d, n, r, h⟩ := search_eq s
  rw [h, State.setOutcome_done]

@[simp] theorem search_g1 (s : State) : (search s).g1 = s.g1 := by
  obtain ⟨k, x, d, n, r, h⟩ := search_eq s
  rw [h, State.setOutcome_g1, State.setSum_g1]

@[simp] theorem search_g2 (s : State) : (search s).g2 = s.g2 := by
  obtain ⟨k, x, d, n, r, h⟩ := search_eq s
  rw [h, State.setOutcome_g2, State.setSum_g2]

@[simp] theorem search_t1 (s : State) : (search s).t1 = s.t1 := by
  obtain ⟨k, x, d, n, r, h⟩ := search_eq s
  rw [h, State.setOutcome_t1, State.setSum_t1]

@[simp] theorem search_t2 (s : State) : (search s).t2 = s.t2 := by
  obtain ⟨k, x, d, n, r, h⟩ := search_eq s
  rw [h, State.setOutcome_t2, State.setSum_t2]

@[simp] theorem search_chipcnt (s : State) : (search s).chipcnt = s.chipcnt := by
  obtain ⟨k, x, d, n, r, h⟩ := search_eq s
  rw [h, State.setOutcome_chipcnt, State.setSum_chipcnt]

@[simp] theorem search_chipMem (s : State) : (search s).chipMem = s.chipMem := by
  obtain ⟨k, x, d, n, r, h⟩ := search_eq s
  rw [h, State.setOutcome_chipMem, State.setSum_chipMem]

@[simp] theorem search_unpkMem (s : State) : (search s).unpkMem = s.unpkMem := by
  obtain ⟨k, x, d, n, r, h⟩ := search_eq s
  rw [h, State.setOutcome_unpkMem, State.setSum_unpkMem]

@[simp] theorem search_sigMem (s : State) : (search s).sigMem = s.sigMem := by
  obtain ⟨k, x, d, n, r, h⟩ := search_eq s
  rw [h, State.setOutcome_sigMem, State.setSum_sigMem]

@[simp] theorem search_cvalid (s : State) : (search s).cvalid = s.cvalid := by
  obtain ⟨k, x, d, n, r, h⟩ := search_eq s
  rw [h, State.setOutcome_cvalid, State.setSum_cvalid]

@[simp] theorem search_uvalid (s : State) : (search s).uvalid = s.uvalid := by
  obtain ⟨k, x, d, n, r, h⟩ := search_eq s
  rw [h, State.setOutcome_uvalid, State.setSum_uvalid]

@[simp] theorem search_err (s : State) : (search s).err = s.err := by
  obtain ⟨k, x, d, n, r, h⟩ := search_eq s
  rw [h, State.setOutcome_err, State.setSum_err]

@[simp] theorem search_errcode (s : State) : (search s).errcode = s.errcode := by
  obtain ⟨k, x, d, n, r, h⟩ := search_eq s
  rw [h, State.setOutcome_errcode, State.setSum_errcode]

@[simp] theorem search_errwr (s : State) : (search s).errwr = s.errwr := by
  obtain ⟨k, x, d, n, r, h⟩ := search_eq s
  rw [h, State.setOutcome_errwr, State.setSum_errwr]

@[simp] theorem search_errval (s : State) : (search s).errval = s.errval := by
  obtain ⟨k, x, d, n, r, h⟩ := search_eq s
  rw [h, State.setOutcome_errval, State.setSum_errval]

@[simp] theorem search_widthCode (s : State) : (search s).widthCode = s.widthCode := by
  obtain ⟨k, x, d, n, r, h⟩ := search_eq s
  rw [h, State.setOutcome_widthCode, State.setSum_widthCode]

@[simp] theorem search_epoch (s : State) : (search s).epoch = s.epoch := by
  obtain ⟨k, x, d, n, r, h⟩ := search_eq s
  rw [h, State.setOutcome_epoch, State.setSum_epoch]

@[simp] theorem search_script (s : State) : (search s).script = s.script := by
  obtain ⟨k, x, d, n, r, h⟩ := search_eq s
  rw [h, State.setOutcome_script, State.setSum_script]

@[simp] theorem search_returned (s : State) : (search s).returned = s.returned := by
  obtain ⟨k, x, d, n, r, h⟩ := search_eq s
  rw [h, State.setOutcome_returned, State.setSum_returned]

end Sys2Proof.Machine
end

