-- ==== Sys2Proof/Laws/Decode.lean ====
section
/-!
SUPPORT. What a word that decodes looks like, field by field, in numbers (spec/30_encoding.md R70, R72): the lemma that unfolds the
decoder once.
-/

namespace Sys2Proof

/-- The fields of a word are quotients and remainders of its number. -/
theorem bitField_eq (w : Word) (hi lo : Nat) : bitField w hi lo = w.toNat / 2 ^ lo % 2 ^ (hi + 1 - lo) := rfl

/-- What `decodePlain` answers. -/
theorem decodePlain_ok {w : Word} {i j : Instr} (h : decodePlain w i = .ok j) :
    j = i ∧ bitField w 11 8 = 0 ∧ bitField w 7 4 = 0 := by
  unfold decodePlain at h
  split at h
  · cases h; exact ⟨rfl, ‹_›⟩
  · cases h

/-- Every case in which a word decodes. -/
theorem decode_ok {w : Word} {i : Instr} (h : decode w = .ok i) :
    bitField w 31 16 = 0 ∧ bitField w 3 0 = 0 ∧
      ((i = .gen (bitField w 11 8) (bitField w 7 4) ∧ bitField w 15 12 = 1) ∨
        (bitField w 11 8 = 0 ∧ bitField w 7 4 = 0 ∧
          ((i = .nop ∧ bitField w 15 12 = 0) ∨ (i = .unpack ∧ bitField w 15 12 = 2) ∨ (i = .search ∧ bitField w 15 12 = 3) ∨
            (i = .corr ∧ bitField w 15 12 = 4) ∨ (i = .clrerr ∧ bitField w 15 12 = 5) ∨ (i = .srst ∧ bitField w 15 12 = 6)))) := by
  unfold decode at h
  split at h
  · cases h
  · rename_i h1
    split at h
    · cases h
    · rename_i h0
      refine ⟨by simpa using h1, by simpa using h0, ?_⟩
      split at h <;> rename_i heq
      case h_2 => cases h; exact .inl ⟨rfl, heq⟩
      case h_8 => cases h
      all_goals
        obtain ⟨rfl, ha, hb⟩ := decodePlain_ok h
        exact .inr ⟨ha, hb, by simp [heq]⟩

end Sys2Proof
end

