-- ==== Sys2Proof/Laws/Errors.lean ====
section
/-!
SUPPORT. Error entry (spec/60_exceptions.md R157, R160): the one equation that says all a refusal does.
-/

namespace Sys2Proof.Machine

open Sys2Proof.Safety

/-- While ERR = 1 raising an error changes nothing. -/
theorem raiseError_of_err {s : State} (h : s.err = true) (c : ErrCode) (t : Txn) : raiseError c t s = s := by
  simp [raiseError, h]

/-- With ERR = 0 raising an error records it. -/
theorem raiseError_of_no_err {s : State} (h : s.err = false) (c : ErrCode) (t : Txn) :
    raiseError c t s = s.recordError c.bits t.isWrite t.errVal := by
  simp [raiseError, h]

/-- Everything a refusal does, in every state. -/
theorem refuse_eq (c : ErrCode) (t : Txn) (s : State) : refuse c t s = refusedState s c t := by
  cases h : s.err
  · cases t <;> simp [refuse, raiseError, h, refusedState, State.recordError, State.answer, Txn.isWrite]
  · obtain ⟨⟩ := s
    simp only at h
    subst h
    cases t <;> simp [refuse, raiseError, refusedState, State.answer, Txn.isWrite]

/-- The code recorded is one of 1 to 5. -/
theorem ErrCode.bits_range (c : ErrCode) : 1 ≤ c.bits.toNat ∧ c.bits.toNat ≤ 5 := by
  cases c <;> decide

end Sys2Proof.Machine
end

