-- ==== Sys2Proof/Laws/Generator.lean ====
section
/-!
SUPPORT. The generator: its registers after n steps, the bits of a pass element by element, and what a pass leaves in the state
(spec/40_generator.md R92 to R98).
-/

namespace Sys2Proof.Machine

/-- One more step of a shift register, taken last. -/
theorem stepsOf_succ (next : BitVec 10 → BitVec 10) (n : Nat) (g : BitVec 10) :
    stepsOf next (n + 1) g = next (stepsOf next n g) := by
  induction n generalizing g with
  | zero => rfl
  | succ n ih => exact ih (next g)

/-- Steps of a shift register add up. -/
theorem stepsOf_add (next : BitVec 10 → BitVec 10) (m n : Nat) (g : BitVec 10) :
    stepsOf next (m + n) g = stepsOf next n (stepsOf next m g) := by
  induction m generalizing g with
  | zero => rw [Nat.zero_add]; rfl
  | succ m ih => rw [Nat.succ_add]; exact ih (next g)

@[simp] theorem length_packedBits (t1 t2 n : Nat) (g1 g2 : BitVec 10) : (packedBits t1 t2 n g1 g2).length = n := by
  induction n generalizing g1 g2 with
  | zero => rfl
  | succ n ih => simp [packedBits, ih]

/-- Bit k of a pass is the packed bit of the registers after k steps. -/
theorem packedBits_getElem? (t1 t2 n : Nat) (g1 g2 : BitVec 10) (k : Nat) :
    (packedBits t1 t2 n g1 g2)[k]? = if k < n then some (packedBit (stepsOf next1 k g1) (stepsOf next2 k g2) t1 t2) else none := by
  induction n generalizing g1 g2 k with
  | zero => simp [packedBits]
  | succ n ih =>
    cases k with
    | zero => simp [packedBits, stepsOf]
    | succ k =>
      rw [packedBits, List.getElem?_cons_succ, ih]
      simp [stepsOf]

/-- The chips a pass of n steps leaves: its bits, the pad bit after them, everything else as before. -/
theorem genRun_chipAt (n : Nat) (s : State) (k : Nat) :
    (genRun n s).chipAt k =
      if k < n then packedBit (stepsOf next1 k s.g1) (stepsOf next2 k s.g2) s.t1.toNat s.t2.toNat
      else if k = n then false else s.chipAt k := by
  have hlen : (packedBits s.t1.toNat s.t2.toNat n s.g1 s.g2 ++ [false]).length = n + 1 := by simp
  simp only [genRun, State.chipAt, State.setGen_chipMem, State.fillChips_chipMem, State.setGen_epoch, State.fillChips_epoch,
    Mem.find_fill, hlen, Nat.zero_le, true_and, Nat.zero_add, Nat.sub_zero]
  rcases Nat.lt_trichotomy k n with hlt | heq | hgt
  · rw [if_pos (by omega), List.getElem?_append_left (by simpa using hlt), packedBits_getElem?, if_pos hlt, if_pos hlt]
    rfl
  · subst heq
    rw [if_pos (by omega), List.getElem?_append_right (by simp)]
    simp
  · rw [if_neg (by omega), if_neg (by omega), if_neg (by omega)]

/-- A pass of 1023 steps keeps CHIPMEM in canonical form. -/
theorem genRun_chipMem_wf {s : State} (h : Mem.wf 1024 s.chipMem = true) : Mem.wf 1024 (genRun Config.chips s).chipMem = true :=
  Mem.wf_fill _ h (by simp)

/-! ### What an accepted GEN leaves, field by field -/

@[simp] theorem generate_g1 (t1 t2 : Nat) (s : State) : (generate t1 t2 s).g1 = stepsOf next1 Config.chips Config.lfsrPreset := by
  simp only [generate, flagsAfterGen, genRun, genStart, State.setValid_g1, State.setGen_g1, State.setGen_g1]

@[simp] theorem generate_g2 (t1 t2 : Nat) (s : State) : (generate t1 t2 s).g2 = stepsOf next2 Config.chips Config.lfsrPreset := by
  simp only [generate, flagsAfterGen, genRun, genStart, State.setValid_g2, State.setGen_g2, State.setGen_g2]

@[simp] theorem generate_t1 (t1 t2 : Nat) (s : State) : (generate t1 t2 s).t1 = BitVec.ofNat 4 t1 := by
  simp only [generate, flagsAfterGen, genRun, genStart, State.setValid_t1, State.setGen_t1, State.fillChips_t1, State.setTaps_t1]

@[simp] theorem generate_t2 (t1 t2 : Nat) (s : State) : (generate t1 t2 s).t2 = BitVec.ofNat 4 t2 := by
  simp only [generate, flagsAfterGen, genRun, genStart, State.setValid_t2, State.setGen_t2, State.fillChips_t2, State.setTaps_t2]

@[simp] theorem generate_chipcnt (t1 t2 : Nat) (s : State) : (generate t1 t2 s).chipcnt = 1023 := by
  simp [generate, flagsAfterGen, genRun, genStart]

@[simp] theorem generate_cvalid (t1 t2 : Nat) (s : State) : (generate t1 t2 s).cvalid = true := by
  simp only [generate, flagsAfterGen, State.setValid_cvalid]

@[simp] theorem generate_uvalid (t1 t2 : Nat) (s : State) : (generate t1 t2 s).uvalid = false := by
  simp only [generate, flagsAfterGen, State.setValid_uvalid]

@[simp] theorem generate_done (t1 t2 : Nat) (s : State) : (generate t1 t2 s).done = false := by
  simp only [generate, flagsAfterGen, State.setValid_done]

@[simp] theorem generate_unpkMem (t1 t2 : Nat) (s : State) : (generate t1 t2 s).unpkMem = s.unpkMem := by
  simp only [generate, flagsAfterGen, genRun, genStart, State.setValid_unpkMem, State.setGen_unpkMem, State.fillChips_unpkMem, State.setTaps_unpkMem]

@[simp] theorem generate_sigMem (t1 t2 : Nat) (s : State) : (generate t1 t2 s).sigMem = s.sigMem := by
  simp only [generate, flagsAfterGen, genRun, genStart, State.setValid_sigMem, State.setGen_sigMem, State.fillChips_sigMem, State.setTaps_sigMem]

@[simp] theorem generate_shift (t1 t2 : Nat) (s : State) : (generate t1 t2 s).shift = s.shift := by
  simp only [generate, flagsAfterGen, genRun, genStart, State.setValid_shift, State.setGen_shift, State.fillChips_shift, State.setTaps_shift]

@[simp] theorem generate_acc (t1 t2 : Nat) (s : State) : (generate t1 t2 s).acc = s.acc := by
  simp only [generate, flagsAfterGen, genRun, genStart, State.setValid_acc, State.setGen_acc, State.fillChips_acc, State.setTaps_acc]

@[simp] theorem generate_result (t1 t2 : Nat) (s : State) : (generate t1 t2 s).result = s.result := by
  simp only [generate, flagsAfterGen, genRun, genStart, State.setValid_result, State.setGen_result, State.fillChips_result, State.setTaps_result]

@[simp] theorem generate_det (t1 t2 : Nat) (s : State) : (generate t1 t2 s).det = s.det := by
  simp only [generate, flagsAfterGen, genRun, genStart, State.setValid_det, State.setGen_det, State.fillChips_det, State.setTaps_det]

@[simp] theorem generate_neg (t1 t2 : Nat) (s : State) : (generate t1 t2 s).neg = s.neg := by
  simp only [generate, flagsAfterGen, genRun, genStart, State.setValid_neg, State.setGen_neg, State.fillChips_neg, State.setTaps_neg]

@[simp] theorem generate_err (t1 t2 : Nat) (s : State) : (generate t1 t2 s).err = s.err := by
  simp only [generate, flagsAfterGen, genRun, genStart, State.setValid_err, State.setGen_err, State.fillChips_err, State.setTaps_err]

@[simp] theorem generate_errcode (t1 t2 : Nat) (s : State) : (generate t1 t2 s).errcode = s.errcode := by
  simp only [generate, flagsAfterGen, genRun, genStart, State.setValid_errcode, State.setGen_errcode, State.fillChips_errcode, State.setTaps_errcode]

@[simp] theorem generate_errwr (t1 t2 : Nat) (s : State) : (generate t1 t2 s).errwr = s.errwr := by
  simp only [generate, flagsAfterGen, genRun, genStart, State.setValid_errwr, State.setGen_errwr, State.fillChips_errwr, State.setTaps_errwr]

@[simp] theorem generate_errval (t1 t2 : Nat) (s : State) : (generate t1 t2 s).errval = s.errval := by
  simp only [generate, flagsAfterGen, genRun, genStart, State.setValid_errval, State.setGen_errval, State.fillChips_errval, State.setTaps_errval]

@[simp] theorem generate_widthCode (t1 t2 : Nat) (s : State) : (generate t1 t2 s).widthCode = s.widthCode := by
  simp only [generate, flagsAfterGen, genRun, genStart, State.setValid_widthCode, State.setGen_widthCode, State.fillChips_widthCode, State.setTaps_widthCode]

@[simp] theorem generate_epoch (t1 t2 : Nat) (s : State) : (generate t1 t2 s).epoch = s.epoch := by
  simp only [generate, flagsAfterGen, genRun, genStart, State.setValid_epoch, State.setGen_epoch, State.fillChips_epoch, State.setTaps_epoch]

@[simp] theorem generate_script (t1 t2 : Nat) (s : State) : (generate t1 t2 s).script = s.script := by
  simp only [generate, flagsAfterGen, genRun, genStart, State.setValid_script, State.setGen_script, State.fillChips_script, State.setTaps_script]

@[simp] theorem generate_returned (t1 t2 : Nat) (s : State) : (generate t1 t2 s).returned = s.returned := by
  simp only [generate, flagsAfterGen, genRun, genStart, State.setValid_returned, State.setGen_returned, State.fillChips_returned, State.setTaps_returned]

/-- The chips an accepted GEN leaves: the Gold sequence of its taps, and the pad bit. -/
theorem generate_chipAt {t1 t2 : Nat} (h1 : t1 ≤ 10) (h2 : t2 ≤ 10) (s : State) (k : Nat) :
    (generate t1 t2 s).chipAt k =
      if k < 1023 then Safety.goldBit t1 t2 k else if k = 1023 then false else s.chipAt k := by
  have n1 : (BitVec.ofNat 4 t1).toNat = t1 := by rw [BitVec.toNat_ofNat]; omega
  have n2 : (BitVec.ofNat 4 t2).toNat = t2 := by rw [BitVec.toNat_ofNat]; omega
  simp only [generate, flagsAfterGen, State.setValid_chipAt, genRun_chipAt, genStart, State.setGen_g1, State.setGen_g2, State.setGen_t1,
    State.setGen_t2, State.setTaps_t1, State.setTaps_t2, State.setGen_chipAt, State.setTaps_chipAt, n1, n2]
  rfl

end Sys2Proof.Machine
end

