-- ==== Sys2Proof/Laws/HostPort.lean ====
section
/-!
SUPPORT. The address map, unfolded once (spec/20_memory.md R41): which addresses stand for which place, and the address of each element
of the three windows.
-/

namespace Sys2Proof.Machine

theorem aligned_iff (addr : Addr) : aligned addr = true ↔ addr.toNat % 4 = 0 := by
  simp [aligned]

/-- CONFIG as R32 writes it: 0x000CF3FF + W * 0x00100000. -/
theorem configWord_eq (s : State) : configWord s = BitVec.ofNat 32 (0x000CF3FF + s.width * 0x00100000) := by
  have h : ∀ w : Nat, Config.chips + 828 * 0x00000400 + w * 0x00100000 = 0x000CF3FF + w * 0x00100000 := fun w => by
    rw [show Config.chips + 828 * 0x00000400 = 0x000CF3FF from rfl]
  rw [configWord, h]

/-- Every address of the map, by the place that stands there. -/
theorem placeAt_spec (a : Nat) :
    match placeAt a with
    | .cmd => a = 0
    | .status => a = 0x04
    | .result => a = 0x08
    | .sum => a = 0x0C
    | .shift => a = 0x10
    | .genstat => a = 0x14
    | .lfsr => a = 0x18
    | .errinfo => a = 0x1C
    | .config => a = 0x20
    | .chipw k => 0x80 ≤ a ∧ a ≤ 0xFC ∧ k = (a - 0x80) / 4
    | .sig i => 0x1000 ≤ a ∧ a ≤ 0x1FF8 ∧ i = (a - 0x1000) / 4
    | .unpk i => 0x2000 ≤ a ∧ a ≤ 0x2FF8 ∧ i = (a - 0x2000) / 4
    | .reserved =>
      a ∉ [0, 0x04, 0x08, 0x0C, 0x10, 0x14, 0x18, 0x1C, 0x20] ∧ ¬(0x80 ≤ a ∧ a ≤ 0xFC) ∧ ¬(0x1000 ≤ a ∧ a ≤ 0x1FF8) ∧
        ¬(0x2000 ≤ a ∧ a ≤ 0x2FF8) := by
  by_cases h1 : a = 0
  · subst h1; rfl
  by_cases h2 : a = 0x04
  · subst h2; rfl
  by_cases h3 : a = 0x08
  · subst h3; rfl
  by_cases h4 : a = 0x0C
  · subst h4; rfl
  by_cases h5 : a = 0x10
  · subst h5; rfl
  by_cases h6 : a = 0x14
  · subst h6; rfl
  by_cases h7 : a = 0x18
  · subst h7; rfl
  by_cases h8 : a = 0x1C
  · subst h8; rfl
  by_cases h9 : a = 0x20
  · subst h9; rfl
  rw [placeAt, if_neg h1, if_neg h2, if_neg h3, if_neg h4, if_neg h5, if_neg h6, if_neg h7, if_neg h8, if_neg h9]
  by_cases h10 : 0x80 ≤ a ∧ a ≤ 0xFC
  · rw [if_pos h10]; exact ⟨h10.1, h10.2, rfl⟩
  rw [if_neg h10]
  by_cases h11 : 0x1000 ≤ a ∧ a ≤ 0x1FF8
  · rw [if_pos h11]; exact ⟨h11.1, h11.2, rfl⟩
  rw [if_neg h11]
  by_cases h12 : 0x2000 ≤ a ∧ a ≤ 0x2FF8
  · rw [if_pos h12]; exact ⟨h12.1, h12.2, rfl⟩
  rw [if_neg h12]
  refine ⟨?_, h10, h11, h12⟩
  simp only [List.mem_cons, List.not_mem_nil, or_false]
  omega

/-- The byte address of word k of the CHIPW window. -/
theorem chipw_addr {k : Nat} (hk : k < 32) : (BitVec.ofNat 14 (0x0080 + 4 * k)).toNat = 0x0080 + 4 * k := by
  rw [BitVec.toNat_ofNat]; omega

/-- The byte address of element i of the SIG window. -/
theorem sig_addr {i : Nat} (hi : i < 1023) : (BitVec.ofNat 14 (0x1000 + 4 * i)).toNat = 0x1000 + 4 * i := by
  rw [BitVec.toNat_ofNat]; omega

/-- The byte address of element i of the UNPK window. -/
theorem unpk_addr {i : Nat} (hi : i < 1023) : (BitVec.ofNat 14 (0x2000 + 4 * i)).toNat = 0x2000 + 4 * i := by
  rw [BitVec.toNat_ofNat]; omega

/-- The addresses of the CHIPW window name its words. -/
theorem placeAt_chipw {k : Nat} (hk : k < 32) : placeAt (0x0080 + 4 * k) = .chipw k := by
  have h := placeAt_spec (0x0080 + 4 * k)
  generalize placeAt (0x0080 + 4 * k) = p at h ⊢
  cases p with
  | chipw j => rw [show j = k by omega]
  | _ => exfalso; simp only at h; omega

/-- The addresses of the SIG window name its samples. -/
theorem placeAt_sig {i : Nat} (hi : i < 1023) : placeAt (0x1000 + 4 * i) = .sig i := by
  have h := placeAt_spec (0x1000 + 4 * i)
  generalize placeAt (0x1000 + 4 * i) = p at h ⊢
  cases p with
  | sig j => rw [show j = i by omega]
  | _ => exfalso; simp only at h; omega

/-- The addresses of the UNPK window name its elements. -/
theorem placeAt_unpk {i : Nat} (hi : i < 1023) : placeAt (0x2000 + 4 * i) = .unpk i := by
  have h := placeAt_spec (0x2000 + 4 * i)
  generalize placeAt (0x2000 + 4 * i) = p at h ⊢
  cases p with
  | unpk j => rw [show j = i by omega]
  | _ => exfalso; simp only at h; omega

end Sys2Proof.Machine
end

