-- ==== Sys2Proof/Laws/PerInstr.lean ====
section
/-!
SUPPORT. Facts about every command as syntax, one lemma per constructor: the word of a well-formed command lies in its own row of the
opcode map (spec/30_encoding.md R72).
-/

namespace Sys2Proof.Laws.EncodedWord

/-- The command's word has the row's fixed bits: w & mask = match. -/
def Statement (i : Instr) : Prop :=
  i.WellFormed → encode i &&& opcodeMask i = opcodeMatch i

theorem nop : Statement .nop := fun _ => by decide

theorem gen (t1 t2 : Nat) : Statement (.gen t1 t2) := by
  intro h
  have h' : t1 ≤ 15 ∧ t2 ≤ 15 := by simpa [Instr.WellFormed, Instr.wellFormed] using h
  obtain ⟨a, rfl⟩ : ∃ a : Fin 16, t1 = a.val := ⟨⟨t1, by omega⟩, rfl⟩
  obtain ⟨b, rfl⟩ : ∃ b : Fin 16, t2 = b.val := ⟨⟨t2, by omega⟩, rfl⟩
  clear h h'
  revert a b
  decide

theorem unpack : Statement .unpack := fun _ => by decide

theorem search : Statement .search := fun _ => by decide

theorem corr : Statement .corr := fun _ => by decide

theorem clrerr : Statement .clrerr := fun _ => by decide

theorem srst : Statement .srst := fun _ => by decide

end Sys2Proof.Laws.EncodedWord
end

