-- ==== Sys2Proof/Laws/Step.lean ====
section
/-!
SUPPORT. What a command, a transaction, a host action and a step can do, said once for all: every invariant follows by cases on these
lemmas, without unfolding the machine again.
-/

namespace Sys2Proof.Machine

open Safety

/-- The state a command leaves when its own check accepts it. -/
def performed : Instr → State → State
  | .nop, s => s
  | .gen t1 t2, s => generate t1 t2 s
  | .unpack, s => flagsAfterUnpack (unpackAll s)
  | .search, s => Machine.search s
  | .corr, s => Machine.search (flagsInsideCorr (unpackAll s))
  | .clrerr, s => s.clearError
  | .srst, s => s.resetRegisters

/-- An accepted command. -/
theorem exec_accepted {s : State} {i : Instr} (h : commandRefusal s i = none) : exec i s = .next (performed i s) := by
  cases i with
  | gen t1 t2 =>
    simp only [commandRefusal, ite_eq_left_iff, reduceCtorEq, imp_false, not_not] at h
    rw [exec, execGen, if_pos (by simp [tapOk, h]), performed]
  | unpack =>
    simp only [commandRefusal, ite_eq_left_iff, reduceCtorEq, imp_false, not_not] at h
    rw [exec, execUnpack, if_pos h, performed]
  | search =>
    simp only [commandRefusal, ite_eq_left_iff, reduceCtorEq, imp_false, not_not] at h
    rw [exec, execSearch, if_pos h, performed]
  | corr =>
    simp only [commandRefusal, ite_eq_left_iff, reduceCtorEq, imp_false, not_not] at h
    rw [exec, execCorr, if_pos h, performed]
  | nop => rfl
  | clrerr => rfl
  | srst => rfl

/-- A command its own check refuses. -/
theorem exec_refused {s : State} {i : Instr} {c : ErrCode} (h : commandRefusal s i = some c) :
    exec i s = .next (refusedState s c (commandTxn i)) := by
  cases i with
  | gen t1 t2 =>
    simp only [commandRefusal, Option.ite_none_left_eq_some, Option.some.injEq] at h
    obtain ⟨h, rfl⟩ := h
    rw [exec, execGen, if_neg (by simpa [tapOk, and_assoc] using h), refuse_eq]
  | unpack =>
    simp only [commandRefusal, Option.ite_none_left_eq_some, Option.some.injEq] at h
    obtain ⟨h, rfl⟩ := h
    rw [exec, execUnpack, if_neg h, refuse_eq]
  | search =>
    simp only [commandRefusal, Option.ite_none_left_eq_some, Option.some.injEq] at h
    obtain ⟨h, rfl⟩ := h
    rw [exec, execSearch, if_neg h, refuse_eq]
  | corr =>
    simp only [commandRefusal, Option.ite_none_left_eq_some, Option.some.injEq] at h
    obtain ⟨h, rfl⟩ := h
    rw [exec, execCorr, if_neg h, refuse_eq]
  | nop => cases h
  | clrerr => cases h
  | srst => cases h

/-- A read answers a word or is refused. -/
theorem readPlace_cases (p : Place) (t : Txn) (s : State) :
    (∃ w, readPlace p t s = s.answer w) ∨ ∃ c, readPlace p t s = refusedState s c t := by
  cases p with
  | cmd => exact .inr ⟨_, refuse_eq ..⟩
  | reserved => exact .inr ⟨_, refuse_eq ..⟩
  | chipw k =>
    by_cases h : s.cvalid = true
    · exact .inl ⟨_, by rw [readPlace, if_pos h]⟩
    · exact .inr ⟨_, by rw [readPlace, if_neg h, refuse_eq]⟩
  | unpk i =>
    by_cases h : s.uvalid = true
    · exact .inl ⟨_, by rw [readPlace, if_pos h]⟩
    · exact .inr ⟨_, by rw [readPlace, if_neg h, refuse_eq]⟩
  | status => exact .inl ⟨_, rfl⟩
  | result => exact .inl ⟨_, rfl⟩
  | sum => exact .inl ⟨_, rfl⟩
  | shift => exact .inl ⟨_, rfl⟩
  | genstat => exact .inl ⟨_, rfl⟩
  | lfsr => exact .inl ⟨_, rfl⟩
  | errinfo => exact .inl ⟨_, rfl⟩
  | config => exact .inl ⟨_, rfl⟩
  | sig i => exact .inl ⟨_, rfl⟩

/-- Everything a transaction can do: it is refused (`t'` is the transaction, or its command's own word written to CMD), it is a read that answers, it writes a sample, or it performs a command (R40, R57). -/
theorem transact_cases (t : Txn) (s : State) :
    (∃ c t', t'.isWrite = t.isWrite ∧ transact t s = .next (refusedState s c t')) ∨
    (∃ addr w, t = .read addr ∧ transact t s = .next (s.answer w)) ∨
    (∃ i v, i < 1023 ∧ t = .write (BitVec.ofNat 14 (0x1000 + 4 * i)) v ∧
      transact t s = .next (flagsAfterSigWrite (s.writeSig i v))) ∨
    (∃ w i, t = .write 0 w ∧ decode w = .ok i ∧ commandRefusal s i = none ∧ transact t s = .next (performed i s)) := by
  cases t with
  | read addr =>
    by_cases ha : aligned addr = true
    · rw [transact, if_pos ha]
      rcases readPlace_cases (placeAt addr.toNat) (.read addr) s with ⟨w, h⟩ | ⟨c, h⟩
      · exact .inr (.inl ⟨addr, w, rfl, by rw [h]⟩)
      · exact .inl ⟨c, _, rfl, by rw [h]⟩
    · exact .inl ⟨_, _, rfl, by rw [transact, if_neg ha, refuse_eq]⟩
  | write addr data =>
    by_cases ha : aligned addr = true
    · rw [transact, if_pos ha]
      have hs := placeAt_spec addr.toNat
      have hm := (aligned_iff addr).mp ha
      generalize placeAt addr.toNat = p at hs ⊢
      cases p with
      | cmd =>
        have hz : addr = 0 := BitVec.eq_of_toNat_eq hs
        subst hz
        rw [writePlace, writeCmd]
        cases hd : decode data with
        | error e => exact .inl ⟨.badCmd, _, rfl, by simp only [refuse_eq]⟩
        | ok i =>
          cases hc : commandRefusal s i with
          | none => exact .inr (.inr (.inr ⟨data, i, rfl, hd, hc, exec_accepted hc⟩))
          | some c =>
            exact .inl ⟨c, commandTxn i, rfl, exec_refused hc⟩
      | sig i =>
        obtain ⟨h1, h2, h3⟩ := hs
        refine .inr (.inr (.inl ⟨i, data, by omega, ?_, rfl⟩))
        congr 1
        apply BitVec.eq_of_toNat_eq
        rw [BitVec.toNat_ofNat]
        omega
      | _ => exact .inl ⟨.badAccess, _, rfl, by rw [writePlace, refuse_eq]⟩
    · exact .inl ⟨_, _, rfl, by rw [transact, if_neg ha, refuse_eq]⟩

/-- Everything a step can do: nothing, a fault for overlapping transactions, a hard reset, a refused transaction, or a transaction. -/
theorem step_cases (s : State) :
    (s.script = [] ∧ step s = .next s) ∨
    ∃ a rest, s.script = a :: rest ∧
      ((∃ t u, a = .overlap t u ∧ step s = .fault .overlappingTransactions) ∨
      (Resets a ∧ step s = .next (s.setScript rest).hardReset) ∨
      (∃ t, a = .subword t ∧ step s = .next (refusedState (s.setScript rest) .badAccess t)) ∨
      ∃ t, a = .transact t ∧ step s = transact t (s.setScript rest)) := by
  rw [step, nextAction]
  cases hs : s.script with
  | nil => exact .inl ⟨rfl, rfl⟩
  | cons a rest =>
    refine .inr ⟨a, rest, rfl, ?_⟩
    cases a with
    | transact t => exact .inr (.inr (.inr ⟨t, rfl, rfl⟩))
    | subword t => exact .inr (.inr (.inl ⟨t, rfl, by simp only [hostAct, refuse_eq]⟩))
    | hardReset d => exact .inr (.inl ⟨⟨d, rfl⟩, rfl⟩)
    | overlap t u => exact .inl ⟨t, u, rfl, rfl⟩

end Sys2Proof.Machine
end

