-- ==== Sys2Proof/Tests/Slice0.lean ====
section
/-!
SUPPORT. The model's own tests: words written out from spec/30_encoding.md, single operations with the values of
spec/95_test_vectors.md, and for every obligation with hypotheses a state and operands that meet them together.
-/

namespace Sys2Proof.Tests

open Sys2Proof Sys2Proof.Machine Sys2Proof.Safety

/-! ### Small states -/

/-- The outcome is a next state for which `p` holds. -/
def nextHolds (o : Host.Outcome State Fault Refusal) (p : State → Bool) : Bool :=
  match o with
  | .next t => p t
  | .fault _ => false
  | .refused _ => false

/-- The reset state of an instance with W = 8. -/
def w8 : State :=
  { State.reset with widthCode := 6 }

/-- A state about to perform the host actions `acts`. -/
def withActs (acts : List HostAction) : State :=
  w8.setScript acts

/-- A state whose chips, packed and unpacked, are valid: the unpacked chips `u`, the samples `x`, W = 12. -/
def searchState (u : List (BitVec 2)) (x : List Int) : State :=
  { State.reset with
    widthCode := 10, unpkMem := Mem.pairs 0 u, sigMem := Mem.pairs 0 x, cvalid := true, uvalid := true }

/-- 1023 times the same element. -/
def all {α : Type} (v : α) : List α :=
  List.replicate 1023 v

theorem test_all_length {α : Type} (v : α) : (all v).length = 1023 := List.length_replicate

theorem test_all_get {α : Type} (v : α) {i : Nat} (h : i < 1023) : (all v)[i]? = some v := by
  rw [all, List.getElem?_replicate, if_pos h]

theorem test_all_none {α : Type} (v : α) {i : Nat} (h : ¬i < 1023) : (all v)[i]? = none := by
  rw [all, List.getElem?_replicate, if_neg h]

/-! ### Well-formedness -/

theorem test_wellformed_gen : (Instr.gen 2 6).WellFormed ∧ (Instr.gen 15 0).WellFormed := by decide

theorem test_illformed_gen_first_tap : ¬(Instr.gen 16 0).WellFormed := by decide

theorem test_illformed_gen_second_tap : ¬(Instr.gen 0 16).WellFormed := by decide

/-! ### Decoding: Z1, OP, A, B, Z0 written out (R70, R72) -/

theorem test_decode_nop : (decode 0b0000000000000000_0000_0000_0000_0000).toOption = some .nop := by decide

theorem test_decode_gen : (decode 0b0000000000000000_0001_0010_0110_0000).toOption = some (.gen 2 6) := by decide

theorem test_decode_gen_field_order : (decode 0b0000000000000000_0001_1010_0001_0000).toOption = some (.gen 10 1) := by decide

theorem test_decode_unpack : (decode 0b0000000000000000_0010_0000_0000_0000).toOption = some .unpack := by decide

theorem test_decode_search : (decode 0b0000000000000000_0011_0000_0000_0000).toOption = some .search := by decide

theorem test_decode_corr : (decode 0b0000000000000000_0100_0000_0000_0000).toOption = some .corr := by decide

theorem test_decode_clrerr : (decode 0b0000000000000000_0101_0000_0000_0000).toOption = some .clrerr := by decide

theorem test_decode_srst : (decode 0b0000000000000000_0110_0000_0000_0000).toOption = some .srst := by decide

/-- The words of V-ENC-2 are all reserved. -/
theorem test_decode_reserved :
    ([0x00007000, 0x0000F000, 0x00002010, 0x00003100, 0x00001261, 0x00011260, 0x00000001, 0x00000260, 0xFFFFFFFF] : List Word).all
      (fun w => (decode w).toOption.isNone) = true := by decide

theorem test_decode_table_word : decodeTableWord 32 0x1AA0 = some (.gen 10 10) ∧ decodeTableWord 32 0x7000 = none := by decide

/-! ### One operation at a time -/

/-- NOP with an error held changes nothing (V-SYS-1). -/
theorem test_nop : nextHolds (execNop (State.reset.recordError 1 true 0x1060)) (fun t =>
    statusWord t == 0x00000020 && errinfoWord t == 0x10600011) = true := by decide

/-- The first 32 steps of GEN 2, 6 pack CHIPW[0] = 0x586D63EC (V-GEN-1). -/
theorem test_gen_first_word : chipWord (genSteps 32 (genStart 2 6 State.reset)) 0 = 0x586D63EC := by decide +kernel

/-- GEN 2, 6 from reset: STATUS, GENSTAT, LFSR, RESULT and the last word (V-GEN-1). -/
theorem test_gen : nextHolds (exec (.gen 2 6) State.reset) (fun t =>
    statusWord t == 0x00000001 && genstatWord t == 0x03FF0602 && lfsrWord t == 0x03FF03FF && resultWord t == 0x00002710 &&
      chipWord t 31 == 0x7BAC78DB) = true := by decide +kernel

/-- UNPACK of 32 packed bits 0011 0111 ...: +1 +1 -1 -1 +1 -1 -1 -1 (V-UNP-1), with the bits of V-GEN-1 written out. -/
theorem test_unpack : nextHolds
    (exec .unpack { State.reset with
      cvalid := true
      chipMem := Mem.pairs 0 [false, false, true, true, false, true, true, true] }) (fun t =>
        (List.range 8).map (fun i => (t.unpkAt i).toInt) == [1, 1, -1, -1, 1, -1, -1, -1] && statusWord t == 0x00000003) = true := by
  decide +kernel

/-- UNPACK from reset is refused with NO_CHIPS (V-UNP-3). -/
theorem test_unpack_refused : nextHolds (exec .unpack State.reset) (fun t =>
    statusWord t == 0x00000020 && errinfoWord t == 0x20000012) = true := by decide

/-- SEARCH of the negated chips: result 0, sum -1023, NEG (V-COR-2, whose outcome at shift 0 holds for any chips). -/
theorem test_search : nextHolds (exec .search (searchState (all 1) (all (-1)))) (fun t =>
    resultWord t == 0x00000000 && sumWord t == 0xFFFFFC01 && shiftWord t == 0x00000000 && statusWord t == 0x0000001F) = true := by
  decide +kernel

/-- SEARCH from reset is refused with NO_UNPK (V-COR-12). -/
theorem test_search_refused : nextHolds (exec .search State.reset) (fun t =>
    statusWord t == 0x00000020 && errinfoWord t == 0x30000013) = true := by decide

/-- CORR of the chips with themselves: result 0, sum 1023 (V-COR-1, whose outcome at shift 0 holds for any chips). -/
theorem test_corr : nextHolds
    (exec .corr { searchState [] (all 1) with chipMem := Mem.pairs 0 (all false), uvalid := false }) (fun t =>
      resultWord t == 0x00000000 && sumWord t == 0x000003FF && statusWord t == 0x0000000F) = true := by
  decide +kernel

/-- CORR from reset is refused with NO_CHIPS (V-COR-12). -/
theorem test_corr_refused : nextHolds (exec .corr State.reset) (fun t => errinfoWord t == 0x40000012) = true := by decide

/-- CLRERR clears the error registers (V-SYS-2). -/
theorem test_clrerr : nextHolds (exec .clrerr (State.reset.recordError 1 true 0x1060)) (fun t =>
    statusWord t == 0x00000000 && errinfoWord t == 0x00000000) = true := by decide

/-- SRST from a state with results and an error (V-SYS-3); a sample stays. -/
theorem test_srst : nextHolds
    (exec .srst { (w8.writeSig 0 0x7F).recordError 1 true 0x1060 with result := -17, t1 := 2, t2 := 6, chipcnt := 1023, det := true })
      (fun t => statusWord t == 0x00000000 && resultWord t == 0x00002710 && genstatWord t == 0x00000000 &&
        errinfoWord t == 0x00000000 && sigWord t 0 == 0x0000007F) = true := by decide

/-! ### The port -/

/-- GEN with a tap out of range: ERRINFO of V-ENC-3. -/
theorem test_tap_range : nextHolds (transact (.write 0 0x00001060) State.reset) (fun t => errinfoWord t == 0x10600011) = true ∧
    nextHolds (transact (.write 0 0x00001FF0) State.reset) (fun t => errinfoWord t == 0x1FF00011) = true := by decide

/-- A reserved word: bits 31:16 are not recorded (V-ENC-2). -/
theorem test_bad_cmd : nextHolds (transact (.write 0 0x00011260) State.reset) (fun t => errinfoWord t == 0x12600014) = true := by
  decide

/-- With W = 8 the write 0x181 reads back as -127, 0x80 as -128 (V-MEM-1), also in the last slot. -/
theorem test_sig_truncation :
    nextHolds (run [.transact (.write 0x1000 0x181), .transact (.write 0x1FF8 0x80), .transact (.read 0x1000),
      .transact (.read 0x1FF8)] w8) (fun t => t.returned == [0xFFFFFF80, 0xFFFFFF81]) = true := by decide

/-- A write to SIG clears DONE and keeps DET (V-MEM-2). -/
theorem test_sig_write_clears_done :
    nextHolds (transact (.write 0x1000 1) { w8 with cvalid := true, uvalid := true, done := true, det := true }) (fun t =>
      statusWord t == 0x0000000B) = true := by decide

/-- Bad reads return 0 and record the address (V-MEM-3). -/
theorem test_bad_reads :
    ([(0x0000, 0x00000005), (0x1002, 0x10020005), (0x1FFC, 0x1FFC0005), (0x2FFC, 0x2FFC0005), (0x0024, 0x00240005),
      (0x0100, 0x01000005), (0x3000, 0x30000005)] : List (Addr × Word)).all
      (fun p => nextHolds (transact (.read p.1) State.reset) (fun t => t.returned == [0] && errinfoWord t == p.2)) = true := by decide

/-- Bad writes record the address (V-MEM-3). -/
theorem test_bad_writes :
    ([(0x0008, 0x00080015), (0x0004, 0x00040015), (0x0080, 0x00800015), (0x2000, 0x20000015), (0x1001, 0x10010015),
      (0x0001, 0x00010015)] : List (Addr × Word)).all
      (fun p => nextHolds (transact (.write p.1 0x00001260) State.reset) (fun t => errinfoWord t == p.2)) = true := by decide

/-- CONFIG with W = 8 (V-RST-1), and a guarded read (V-UNP-3). -/
theorem test_config_and_guard :
    nextHolds (transact (.read 0x0020) w8) (fun t => t.returned == [0x008CF3FF]) = true ∧
    nextHolds (transact (.read 0x2000) w8) (fun t => t.returned == [0] && errinfoWord t == 0x20000003) = true := by decide

/-- The first error is kept (V-MEM-4). -/
theorem test_first_error_wins :
    nextHolds (run [scriptCommand .search, .transact (.write 0 0x000010B0)] w8) (fun t => errinfoWord t == 0x30000013) = true := by
  decide

/-- A placed word is what the next step runs. -/
theorem test_fetch_word : step (State.reset.withFetchWord 32 0x5000) = exec .clrerr State.reset := rfl

/-- Byte 0 of a word is its low byte (R43). -/
theorem test_byte_lanes : byteLane 0x586D63EC 0 = 0xEC ∧ byteLane 0x586D63EC 3 = 0x58 := by decide

/-! ### Witnesses: the hypotheses of each obligation, met together -/

theorem test_witness_CommandEncodingRoundTrip :
    (Instr.gen 0 0).WellFormed ∧ (Instr.gen 15 15).WellFormed ∧ Instr.srst.WellFormed := by decide

theorem test_witness_DecodedWordReencodes : decode 0x00001AA0 = .ok (.gen 10 10) := rfl

theorem test_witness_DecodeFollowsOpcodeMap : decode 0x00001FF0 = .ok (.gen 15 15) := rfl

theorem test_witness_StepRunsDecodedCommand :
    (withActs [.transact (.write 0 0x1260), rdstat]).script = .transact (.write 0 0x1260) :: [rdstat] ∧
      decode 0x1260 = .ok (.gen 2 6) := ⟨rfl, rfl⟩

theorem test_witness_IdleStepHoldsState : State.reset.script = [] := rfl

theorem test_witness_EveryActionCompletes :
    (withActs [.subword (.read 0x0004), rdstat]).script = .subword (.read 0x0004) :: [rdstat] ∧
      ∀ t u, HostAction.subword (.read 0x0004) ≠ .overlap t u := ⟨rfl, fun _ _ h => nomatch h⟩

theorem test_witness_OverlapStops :
    (withActs [.overlap (.read 0x0004) (.read 0x0008)]).script = .overlap (.read 0x0004) (.read 0x0008) :: [] := rfl

theorem test_witness_RefusedTransactionRecordsError :
    refusalOf w8 (.write 0 0x2000) = some .noChips ∧ refusalOf w8 (.write 0 0x3000) = some .noUnpk ∧
    refusalOf w8 (.write 0 0x10B0) = some .tapRange ∧ refusalOf w8 (.write 0 0x7000) = some .badCmd ∧
    refusalOf w8 (.read 0x2FFC) = some .badAccess ∧ refusalOf w8 (.read 0x2FF8) = some .noUnpk := by decide

theorem test_witness_AcceptedTransactionRaisesNothing :
    refusalOf w8 (.write 0 0x5000) = none ∧ transact (.write 0 0x5000) w8 = .next w8.clearError ∧
    refusalOf w8 (.write 0x1FF8 1) = none ∧
      transact (.write 0x1FF8 1) w8 = .next (flagsAfterSigWrite (w8.writeSig 1022 1)) :=
  ⟨by decide, rfl, by decide, rfl⟩

theorem test_witness_ErrorsGateNothing :
    (w8.recordError 5 true 0x0080).clearError = w8.clearError ∧ w8.recordError 5 true 0x0080 ≠ w8 :=
  ⟨rfl, fun h => Bool.noConfusion (congrArg State.err h)⟩

theorem test_witness_BadAccessRefused :
    unreadable (0x0000 : Addr).toNat = true ∧ unreadable (0x0022 : Addr).toNat = true ∧ unreadable (0x0024 : Addr).toNat = true ∧
    unreadable (0x0100 : Addr).toNat = true ∧ unreadable (0x1FFC : Addr).toNat = true ∧ unreadable (0x3FFF : Addr).toNat = true ∧
    unreadable (0x0020 : Addr).toNat = false ∧ unreadable (0x1FF8 : Addr).toNat = false ∧
    writable (0x0004 : Addr).toNat = false ∧ writable (0x1FFC : Addr).toNat = false ∧ writable (0x2000 : Addr).toNat = false ∧
    writable (0x0000 : Addr).toNat = true ∧ writable (0x1FF8 : Addr).toNat = true := by decide

theorem test_witness_ReservedWordIsBadCmd :
    (0x00007000 : Word) ∉ [0x00000000, 0x00002000, 0x00003000, 0x00004000, 0x00005000, 0x00006000] ∧
      (0x00007000 : Word) &&& 0xFFFFF00F ≠ 0x00001000 := by decide

theorem test_witness_TapRangeRefused :
    (0x000010B0 : Word) &&& 0xFFFFF00F = 0x00001000 ∧
      ((0x000010B0 : Word).extractLsb' 8 4).toNat ∉ Finset.Icc 1 10 ∧
      ((0x000010B0 : Word).extractLsb' 4 4).toNat ∉ Finset.Icc 1 10 ∧
      ((0x00001AA0 : Word).extractLsb' 8 4).toNat ∈ Finset.Icc 1 10 := by decide

theorem test_witness_NoChipsRefused : w8.cvalid = false ∧ (31 : Nat) < 32 := by decide

theorem test_witness_NoUnpkRefused : w8.uvalid = false ∧ (1022 : Nat) < 1023 := by decide

theorem test_witness_ReadHasNoSideEffect :
    refusalOf w8 (.read 0x0004) = none ∧ refusalOf w8 (.read 0x1FF8) = none ∧
      refusalOf (searchState [] []) (.read 0x2FF8) = none ∧ refusalOf (searchState [] []) (.read 0x00FC) = none := by decide

/-- The extreme sums of W = 12 fit ACC. -/
theorem test_witness_ResultAndSumViews :
    Fits (w8.width + 10) ({ w8 with acc := -(2 ^ 17) }).acc ∧ Fits (w8.width + 10) ({ w8 with acc := 2 ^ 17 - 1 }).acc := by
  constructor <;> constructor <;> decide

theorem test_witness_ChipWindowReads : (searchState [] []).cvalid = true ∧ (31 : Nat) < 32 := by decide

theorem test_witness_UnpkWindowReads : (searchState [] []).uvalid = true ∧ (1022 : Nat) < 1023 := by decide

/-- Every sample fits when every element is listed or comes from a reset. -/
theorem test_samples_fit_reset : SamplesFit w8 := fun i => resetSample_fits _ _ i

theorem test_witness_SigWindow :
    (1022 : Nat) < 1023 ∧ Fits w8.width (0x7F : Word).toInt ∧ Fits w8.width (0xFFFFFF80 : Word).toInt ∧ SamplesFit w8 :=
  ⟨by decide, by constructor <;> decide, by constructor <;> decide, test_samples_fit_reset⟩

theorem test_witness_LdsigThenRdsigReturnsSample : (1022 : Nat) < 1023 ∧ Fits w8.width (-128) ∧ Fits w8.width 127 :=
  ⟨by decide, by constructor <;> decide, by constructor <;> decide⟩

/-- Both ends of the tap range: used by GenWritesGoldSequence, LfsrPeriodIs1023, GenDependsOnTapsOnly, TapOrderAndEqualTaps and
GenInvalidatesUnpacked, which ask no more. -/
theorem test_witness_taps : ∃ t1 t2 : Nat, 1 ≤ t1 ∧ t1 ≤ 10 ∧ 1 ≤ t2 ∧ t2 ≤ 10 ∧ t1 = 1 ∧ t2 = 10 := ⟨1, 10, by decide⟩

theorem test_witness_LfsrPeriodIs1023 :
    (0 < 1022 ∧ 1022 < 1023) ∧ stepsOf next1 5 0x3FF = stepsOf next1 5 0x3FF := by decide

theorem test_witness_GenOnePassIsStepwise : MemWf w8 ∧ 1 ≤ 1 ∧ 10 ≤ 10 := ⟨State.reset_memories_wf, by decide⟩

/-- A state whose memories are all listed. -/
theorem test_search_state_wf (u : List (BitVec 2)) (x : List Int) (hu : u.length ≤ 1023) (hx : x.length ≤ 1023) :
    MemWf (searchState u x) :=
  ⟨rfl, Mem.wfFrom_pairs (by omega), Mem.wfFrom_pairs (by omega)⟩

theorem test_witness_UnpackExpandsChips : MemWf (searchState [] []) ∧ (searchState [] []).cvalid = true :=
  ⟨test_search_state_wf _ _ (by decide) (by decide), rfl⟩

theorem test_witness_UnpackRoundTrip :
    MemWf { searchState [] [] with chipMem := Mem.pairs 0 (all true) } ∧ (searchState [] []).cvalid = true :=
  ⟨⟨Mem.wfFrom_pairs (by rw [test_all_length]; decide), rfl, rfl⟩, rfl⟩

theorem test_witness_UnpackedChipIsXorResult : MemWf w8 ∧ 1 ≤ 10 ∧ 10 ≤ 10 := ⟨State.reset_memories_wf, by decide⟩

/-! #### Signals -/

/-- Sample i of a listed signal. -/
theorem test_sigAt_searchState (u : List (BitVec 2)) (x : List Int) (i : Nat) :
    (searchState u x).sigAt i = (x[i]?).getD (resetSample 10 State.reset.epoch i) := by
  simp only [State.sigAt, searchState, Mem.find_pairs]
  simp [State.reset]

/-- Chip i of a listed sequence. -/
theorem test_unpkAt_searchState (u : List (BitVec 2)) (x : List Int) (i : Nat) :
    (searchState u x).unpkAt i = (u[i]?).getD (Config.freeUnpk State.reset.epoch i) := by
  simp only [State.unpkAt, searchState, Mem.find_pairs]
  simp [State.reset]

/-- All chips +1, all samples v. -/
def flat (v : Int) : State :=
  searchState (all 1) (all v)

theorem test_flat_wf (v : Int) : MemWf (flat v) :=
  test_search_state_wf _ _ (test_all_length _).le (test_all_length _).le

theorem test_flat_sigAt (v : Int) {i : Nat} (h : i < 1023) : (flat v).sigAt i = v := by
  rw [flat, test_sigAt_searchState, test_all_get v h]; rfl

theorem test_flat_unpkAt (v : Int) {i : Nat} (h : i < 1023) : ((flat v).unpkAt i).toInt = 1 := by
  rw [flat, test_unpkAt_searchState, test_all_get 1 h]; rfl

theorem test_flat_units (v : Int) : ChipsAreUnits (flat v) := fun _ h => .inl (test_flat_unpkAt v h)

theorem test_flat_samples {v : Int} (h : Fits 12 v) : SamplesFit (flat v) := by
  intro i
  by_cases hi : i < 1023
  · rw [test_flat_sigAt v hi]; exact h
  · rw [flat, test_sigAt_searchState, test_all_none v hi]; exact resetSample_fits 10 State.reset.epoch i

theorem test_flat_sum (v : Int) (k : Nat) : formulaSum (flat v) k = 1023 * v := by
  rw [formulaSum, Finset.sum_congr rfl (g := fun _ => v)]
  · simp
  · intro i hi
    rw [test_flat_sigAt v (Nat.mod_lt _ (by decide)), test_flat_unpkAt v (Finset.mem_range.mp hi), mul_one]

theorem test_witness_CorrSumIsFormula : MemWf (flat 1) ∧ (1022 : Nat) < 1023 := ⟨test_flat_wf 1, by decide⟩

/-- A flat sequence at the last delay. -/
theorem test_witness_DelayedChipsPeakAtDelay :
    MemWf (flat 1) ∧ ChipsAreUnits (flat 1) ∧ (1022 : Nat) < 1023 ∧
      ∀ j, j < 1023 → (flat 1).sigAt j = ((flat 1).unpkAt ((j + 1023 - 1022) % 1023)).toInt :=
  ⟨test_flat_wf 1, test_flat_units 1, by decide, fun j hj => by
    rw [test_flat_sigAt 1 hj, test_flat_unpkAt 1 (Nat.mod_lt _ (by decide))]⟩

/-- The most negative sample of W = 12 in every slot. -/
theorem test_witness_AccNeverOverflows :
    SamplesFit (flat (-2048)) ∧ ChipsAreUnits (flat (-2048)) ∧ (1022 : Nat) < 1023 ∧
      Finset.range 1023 ⊆ Finset.range 1023 :=
  ⟨test_flat_samples (by constructor <;> decide), test_flat_units _, by decide, Finset.Subset.refl _⟩

theorem test_witness_SearchWritesResultRegistersOnly : (flat 0).uvalid = true := rfl

/-- A negative sum that qualifies at shift 0. -/
theorem test_witness_SearchReportsFirstQualifyingShift :
    MemWf (flat (-1)) ∧ SamplesFit (flat (-1)) ∧ ChipsAreUnits (flat (-1)) ∧ (flat (-1)).uvalid = true ∧ (0 : Nat) < 1023 ∧
      Exceeds (formulaSum (flat (-1)) 0) ∧ ∀ j, j < 0 → ¬Exceeds (formulaSum (flat (-1)) j) := by
  refine ⟨test_flat_wf _, test_flat_samples (by constructor <;> decide), test_flat_units _, rfl, by decide, ?_, by simp⟩
  rw [test_flat_sum, Exceeds]; decide

/-- The chips +1, -1, +1, ... with one pair of equal neighbours, at the wrap from element 1022 to element 0. -/
def alternating : List (BitVec 2) :=
  (List.range 1023).map (fun i => if i % 2 = 0 then 1 else 3)

/-- The signal 0, ..., 0, 500, 500: its two samples meet equal chips at shift 1022 only. -/
def lastPair : State :=
  searchState alternating ((List.range 1023).map (fun i => if 1021 ≤ i then 500 else 0))

theorem test_lastPair_sigAt {i : Nat} (h : i < 1023) : lastPair.sigAt i = if 1021 ≤ i then 500 else 0 := by
  rw [lastPair, test_sigAt_searchState]; simp [h]

theorem test_lastPair_unpkAt {i : Nat} (h : i < 1023) : (lastPair.unpkAt i).toInt = if i % 2 = 0 then 1 else -1 := by
  rw [lastPair, test_unpkAt_searchState]
  simp only [alternating, List.getElem?_map, List.getElem?_range h, Option.map_some, Option.getD_some]
  split <;> rfl

theorem test_lastPair_units : ChipsAreUnits lastPair := by
  intro i h; rw [test_lastPair_unpkAt h]; split <;> simp

theorem test_lastPair_samples : SamplesFit lastPair := by
  intro i
  by_cases hi : i < 1023
  · rw [test_lastPair_sigAt hi]; split <;> constructor <;> decide
  · rw [lastPair, test_sigAt_searchState]; rw [List.getElem?_eq_none (by simp; omega)]; exact resetSample_fits 10 State.reset.epoch i

theorem test_lastPair_sum {k : Nat} (h : k < 1023) : formulaSum lastPair k = if k = 1022 then 1000 else 0 := by
  have hf : ∀ i ∈ Finset.range 1023, lastPair.sigAt ((i + k) % 1023) * (lastPair.unpkAt i).toInt =
      (if i = (2044 - k) % 1023 then (if i % 2 = 0 then 500 else -500) else 0) +
      (if i = 1022 - k then (if i % 2 = 0 then 500 else -500) else 0) := by
    intro i hi
    have hi' := Finset.mem_range.mp hi
    rw [test_lastPair_sigAt (Nat.mod_lt _ (by decide)), test_lastPair_unpkAt hi']
    split_ifs <;> first | rfl | omega
  rw [formulaSum, Finset.sum_congr rfl hf, Finset.sum_add_distrib, Finset.sum_ite_eq', Finset.sum_ite_eq',
    if_pos (Finset.mem_range.mpr (Nat.mod_lt _ (by decide))), if_pos (Finset.mem_range.mpr (by omega))]
  split_ifs <;> omega

/-- The last shift is the first that qualifies. -/
theorem test_witness_SearchReportsFirstQualifyingShift_last :
    MemWf lastPair ∧ SamplesFit lastPair ∧ ChipsAreUnits lastPair ∧ lastPair.uvalid = true ∧ (1022 : Nat) < 1023 ∧
      Exceeds (formulaSum lastPair 1022) ∧ ∀ j, j < 1022 → ¬Exceeds (formulaSum lastPair j) := by
  refine ⟨test_search_state_wf _ _ (by simp [alternating]) (by simp), test_lastPair_samples, test_lastPair_units, rfl, by decide,
    ?_, ?_⟩
  · rw [test_lastPair_sum (by decide), Exceeds]; decide
  · intro j hj; rw [test_lastPair_sum (by omega), if_neg (by omega), Exceeds]; decide

/-- A silent signal never qualifies (V-COR-10). -/
theorem test_witness_SearchReportsSentinel :
    MemWf (flat 0) ∧ SamplesFit (flat 0) ∧ ChipsAreUnits (flat 0) ∧ (flat 0).uvalid = true ∧
      ∀ j, j < 1023 → ¬Exceeds (formulaSum (flat 0) j) := by
  refine ⟨test_flat_wf _, test_flat_samples (by constructor <;> decide), test_flat_units _, rfl, fun j _ => ?_⟩
  rw [test_flat_sum, Exceeds]; decide

theorem test_witness_ResultRange :
    ((Instr.search = .search ∧ (flat 0).uvalid = true) ∨ (Instr.search = .corr ∧ (flat 0).cvalid = true)) ∧
    ((Instr.corr = .search ∧ (flat 0).uvalid = true) ∨ (Instr.corr = .corr ∧ (flat 0).cvalid = true)) := by decide

theorem test_witness_CorrIsUnpackThenSearch : ({ flat 0 with uvalid := false } : State).cvalid = true := rfl

theorem test_witness_CorrFrame : MemWf (flat 1) ∧ (flat 1).cvalid = true := ⟨test_flat_wf 1, rfl⟩

theorem test_witness_SelfCorrelationDetectsShiftZero :
    MemWf (flat 1) ∧ ChipsAreUnits (flat 1) ∧ (flat 1).uvalid = true ∧
      ∀ j, j < 1023 → (flat 1).sigAt j = ((flat 1).unpkAt j).toInt :=
  ⟨test_flat_wf 1, test_flat_units 1, rfl, fun j hj => by rw [test_flat_sigAt 1 hj, test_flat_unpkAt 1 hj]⟩

/-- Two different states with the same signal and chips. -/
theorem test_witness_SearchDependsOnSignalAndChipsOnly :
    let s' : State := { flat 1 with g1 := 0, shift := 7, det := true }
    MemWf (flat 1) ∧ MemWf s' ∧ (flat 1).uvalid = true ∧ s'.uvalid = true ∧ (flat 1).widthCode = s'.widthCode ∧
      (∀ i, i < 1023 → (flat 1).sigAt i = s'.sigAt i ∧ (flat 1).unpkAt i = s'.unpkAt i) ∧ flat 1 ≠ s' :=
  ⟨test_flat_wf 1, test_flat_wf 1, rfl, rfl, rfl, fun _ _ => ⟨rfl, rfl⟩, fun h => by
    have := congrArg State.det h; exact Bool.noConfusion this⟩

/-! #### The whole machine -/

/-- A hard reset during a SEARCH. -/
theorem test_witness_HardResetStep :
    (withActs [.hardReset (some (.write 0 0x3000)), rdstat]).script = .hardReset (some (.write 0 0x3000)) :: [rdstat] := rfl

/-- A state that meets the invariants: a sample loaded, an error held, and a read of STATUS next. -/
def midRun : State :=
  ((w8.writeSig 5 0x7F).recordError 3 true 0x3000).setScript [rdstat]

theorem test_midRun_inv : Inv midRun where
  memWf := ⟨rfl, rfl, Mem.wf_store _ rfl (by decide)⟩
  samplesFit := by
    intro i
    simp only [State.sigAt, midRun, State.setScript, State.recordError, State.writeSig, Mem.find_store]
    split
    · exact narrow_fits (by decide) _
    · exact resetSample_fits _ _ i
  accFits := by constructor <;> decide
  lfsrAtPreset := by decide
  chipsOfTaps := fun h => Bool.noConfusion h
  unpackedHasChips := by decide
  unpackedMatches := fun h => Bool.noConfusion h
  doneHasUnpacked := by decide
  doneIsCurrent := fun h => Bool.noConfusion h
  notDetected := by decide
  detected := fun h => Bool.noConfusion h
  chipcntAtEnds := by decide
  shiftInRange := by decide
  resultInRange := by decide
  noErrorRegisters := by decide
  errorCode := by decide

theorem test_witness_StepKeepsInvariants :
    Inv midRun ∧ step midRun = .next ((midRun.setScript []).answer (statusWord midRun)) := ⟨test_midRun_inv, rfl⟩

/-- Reading STATUS is no write to SIG and no command. -/
theorem test_witness_MemoriesChangeOnlyByTheirWriters :
    midRun.script = rdstat :: [] ∧ step midRun = .next ((midRun.setScript []).answer (statusWord midRun)) ∧
      ¬Resets rdstat ∧ ¬WritesSig rdstat ∧ ∀ i, ¬Issues rdstat i := by
  refine ⟨rfl, rfl, ?_, ?_, ?_⟩
  · rintro ⟨_, h⟩; cases h
  · rintro ⟨_, _, _, h⟩; cases h
  · rintro _ ⟨_, h, _⟩; cases h

/-- CLRERR is what clears ERR in `midRun`. -/
theorem test_witness_FlagsChangeOnlyAsListed :
    let s := midRun.setScript [scriptCommand .clrerr]
    s.script = scriptCommand .clrerr :: [] ∧ step s = .next (s.setScript []).clearError ∧ s.err = true ∧
      Issues (scriptCommand .clrerr) .clrerr :=
  ⟨rfl, rfl, rfl, _, rfl, rfl⟩

/-- A refused SEARCH is what sets ERR, and a detecting CORR what sets DET and NEG. -/
theorem test_witness_FlagsChangeOnlyAsListed_err :
    (withActs [scriptCommand .search]).err = false ∧ Refused (withActs [scriptCommand .search]) (scriptCommand .search) ∧
      nextHolds (step (withActs [scriptCommand .search])) (fun t => t.err) = true :=
  ⟨rfl, ⟨.noUnpk, by decide⟩, by decide⟩

theorem test_witness_FlagsChangeOnlyAsListed_det :
    let s := { flat (-1) with script := [scriptCommand .search] }
    s.det = false ∧ s.neg = false ∧ nextHolds (step s) (fun t => t.det && t.neg) = true := by decide +kernel

/-- A GEN and a read, from a start with ERR = 0: neither CLRERR nor SRST, and no hard reset. -/
theorem test_witness_GoodRunEndsWithErrClear :
    w8.err = false ∧ ∀ a, a ∈ [scriptCommand (.gen 1 10), rdstat] → ¬Issues a .clrerr ∧ ¬Issues a .srst ∧ ¬Resets a := by
  have hgen : ∀ i, Issues (scriptCommand (.gen 1 10)) i → i = .gen 1 10 := by
    rintro i ⟨w, h, hd⟩
    obtain rfl : encode (.gen 1 10) = w := by injection h with h; injection h
    exact (Except.ok.inj hd).symm
  refine ⟨rfl, fun a ha => ?_⟩
  rcases List.mem_cons.mp ha with rfl | ha
  · refine ⟨fun h => ?_, fun h => ?_, ?_⟩
    · cases hgen _ h
    · cases hgen _ h
    · rintro ⟨_, h⟩; cases h
  · obtain rfl := List.mem_singleton.mp ha
    refine ⟨?_, ?_, ?_⟩
    · rintro ⟨_, h, _⟩; cases h
    · rintro ⟨_, h, _⟩; cases h
    · rintro ⟨_, h⟩; cases h

/-- A run that refuses a GEN and clears the error is not good, though ERR = 0 at its end (R195). -/
theorem test_cleared_error_is_not_good :
    ¬Good [scriptCommand (.gen 0 6), scriptCommand .clrerr] w8 ∧
      nextHolds (run [scriptCommand (.gen 0 6), scriptCommand .clrerr] w8) (fun t => !t.err) = true :=
  ⟨fun h => h.1 ⟨.tapRange, by decide⟩, by decide⟩

/-- A good run: neither transaction is refused where it is issued. -/
theorem test_good_run : Good [ldsig 0 1, rdstat] w8 := by
  refine ⟨fun ⟨c, h⟩ => ?_, _, rfl, fun ⟨c, h⟩ => ?_, _, rfl, trivial⟩ <;> cases (h.symm.trans rfl : some c = none)

theorem test_witness_InstancesAreIndependent :
    stepInstance 1 [w8, w8.setScript [.hardReset none]] = .next [w8, w8.hardReset] := rfl

theorem test_witness_ParametersNeverChange :
    step (w8.setScript [.hardReset none]) = .next w8.hardReset ∧ (w8.setScript [.hardReset none]).script = .hardReset none :: [] ∧
      step w8 = .next w8 ∧ ∀ during rest, w8.script ≠ .hardReset during :: rest :=
  ⟨rfl, rfl, rfl, fun _ _ h => nomatch h⟩

end Sys2Proof.Tests
end

section
/-!
Which steps draw new free values (spec/00_scope.md R4, R5; spec/70_reset_and_hazards.md R182): no transaction changes the sample width
or the epoch, and of all host actions only a hard reset moves the instance to its next epoch.
-/

namespace Sys2Proof.Machine

open Sys2Proof.Safety

@[simp] theorem performed_widthCode (i : Instr) (s : State) : (performed i s).widthCode = s.widthCode := by
  cases i with
  | gen t1 t2 => exact generate_widthCode t1 t2 s
  | search => exact search_widthCode s
  | corr => exact search_widthCode (flagsInsideCorr (unpackAll s))
  | nop | unpack | clrerr | srst => rfl

@[simp] theorem performed_epoch (i : Instr) (s : State) : (performed i s).epoch = s.epoch := by
  cases i with
  | gen t1 t2 => exact generate_epoch t1 t2 s
  | search => exact search_epoch s
  | corr => exact search_epoch (flagsInsideCorr (unpackAll s))
  | nop | unpack | clrerr | srst => rfl

/-- A transaction, accepted or refused, keeps the sample width and the epoch. -/
theorem transact_keeps_width_epoch {x : Txn} {s t : State} (h : transact x s = .next t) :
    t.widthCode = s.widthCode ∧ t.epoch = s.epoch := by
  rcases transact_cases x s with ⟨c, x', -, hx⟩ | ⟨addr, w, -, hx⟩ | ⟨i, v, -, -, hx⟩ | ⟨w, i, -, -, -, hx⟩ <;>
    obtain rfl := Host.Outcome.next.inj (hx.symm.trans h)
  case inl => exact ⟨rfl, rfl⟩
  case inr.inl => exact ⟨State.answer_widthCode s w, State.answer_epoch s w⟩
  case inr.inr.inl => exact ⟨rfl, rfl⟩
  case inr.inr.inr => exact ⟨performed_widthCode i s, performed_epoch i s⟩

/-- What a step does to the sample width and the epoch: the width stays, and the epoch moves on exactly when the step is a hard
reset. -/
theorem step_width_epoch {s t : State} (h : step s = .next t) :
    t.widthCode = s.widthCode ∧
      ((∃ a rest, s.script = a :: rest ∧ Resets a ∧ t.epoch = s.epoch.next) ∨
        ((∀ a rest, s.script = a :: rest → ¬Resets a) ∧ t.epoch = s.epoch)) := by
  rcases step_cases s with
    ⟨hs, ht⟩ | ⟨a, rest, hs, ⟨x, y, -, ht⟩ | ⟨ha, ht⟩ | ⟨x, rfl, ht⟩ | ⟨x, rfl, ht⟩⟩
  · obtain rfl := Host.Outcome.next.inj (ht.symm.trans h)
    exact ⟨rfl, .inr ⟨by simp [hs], rfl⟩⟩
  · cases ht.symm.trans h
  · obtain rfl := Host.Outcome.next.inj (ht.symm.trans h)
    exact ⟨rfl, .inl ⟨a, rest, hs, ha, rfl⟩⟩
  · obtain rfl := Host.Outcome.next.inj (ht.symm.trans h)
    exact ⟨rfl, .inr ⟨by simp [hs, Resets], rfl⟩⟩
  · obtain ⟨hw, he⟩ := transact_keeps_width_epoch (ht.symm.trans h)
    exact ⟨hw, .inr ⟨by simp [hs, Resets], he⟩⟩

/-- Settles O59: the epoch is kept, or moves to the next one with the same serial number. -/
theorem parametersNeverChange : Obligations.ParametersNeverChange := by
  intro s t h
  obtain ⟨hw, ⟨a, rest, hs, ⟨during, rfl⟩, he⟩ | ⟨hno, he⟩⟩ := step_width_epoch h
  · exact ⟨hw, by rw [he, Config.Epoch.next], fun _ _ _ => by rw [he, Config.Epoch.next], fun hn => absurd hs (hn during rest)⟩
  · exact ⟨hw, by rw [he], fun during rest hs => absurd ⟨during, rfl⟩ (hno _ rest hs), fun _ => by rw [he]⟩

end Sys2Proof.Machine
end

section
/-!
What one host action does to the machine (spec/20_memory.md R40, R57): the checks of `refusalOf` decide whether a transaction is
refused, and a step whose action is given ends in one of five ways.
-/

namespace Sys2Proof.Machine

open Sys2Proof.Safety

/-! ### The checks, in numbers -/

theorem unreadable_eq_false_iff (a : Nat) :
    unreadable a = false ↔
      a % 4 = 0 ∧ a ≠ 0 ∧ ¬(0x24 ≤ a ∧ a < 0x80) ∧ ¬(0x100 ≤ a ∧ a < 0x1000) ∧ ¬(0x1FFC ≤ a ∧ a < 0x2000) ∧ a < 0x2FFC := by
  simp [unreadable, and_assoc]

theorem writable_iff (a : Nat) : writable a = true ↔ a % 4 = 0 ∧ (a = 0 ∨ 0x1000 ≤ a ∧ a ≤ 0x1FF8) := by
  simp [writable]

/-- A read that no check of R57 refuses. -/
theorem refusalOf_read_eq_none {s : State} {addr : Addr} (h : refusalOf s (.read addr) = none) :
    unreadable addr.toNat = false ∧ (0x80 ≤ addr.toNat → addr.toNat < 0x100 → s.cvalid = true) ∧
      (0x2000 ≤ addr.toNat → s.uvalid = true) := by
  rw [refusalOf] at h
  split_ifs at h with h1 h2 h3
  exact ⟨by simpa using h1, by simpa using h2, by simpa using h3⟩

/-- A write that no check of R57 and R77 refuses names CMD with an acceptable command word, or a sample. -/
theorem refusalOf_write_eq_none {s : State} {addr : Addr} {data : Word} (h : refusalOf s (.write addr data) = none) :
    (addr = 0 ∧ ∃ i, decode data = .ok i ∧ commandRefusal s i = none) ∨
      (addr.toNat % 4 = 0 ∧ 0x1000 ≤ addr.toNat ∧ addr.toNat ≤ 0x1FF8) := by
  rw [refusalOf] at h
  split_ifs at h with hw h0
  · refine .inl ⟨h0, ?_⟩
    cases hd : decode data with
    | error e => simp [hd] at h
    | ok i => exact ⟨i, rfl, by simpa [hd] using h⟩
  · have hne : addr.toNat ≠ 0 := fun h => h0 (BitVec.eq_of_toNat_eq h)
    have hw' := (writable_iff addr.toNat).1 (by simpa using hw)
    exact .inr (by omega)

/-- The checks do not look at what the host does next. -/
@[simp] theorem refusalOf_setScript (s : State) (acts : List HostAction) (t : Txn) :
    refusalOf (s.setScript acts) t = refusalOf s t := by
  cases t <;> rfl

/-- Nor does the refusal of a host action. -/
theorem refused_setScript {s : State} {acts : List HostAction} {a : HostAction} (h : Refused (s.setScript acts) a) : Refused s a := by
  cases a with
  | transact t => simpa [Refused] using h
  | subword t | hardReset d | overlap t u => exact h

/-! ### Effects -/

/-- What host action `a` can make of state `s`: it resets, it is refused, it reads, it writes a sample, or it performs a command. -/
inductive Effect (a : HostAction) (s : State) : State → Prop
  | reset (ha : Resets a) : Effect a s s.hardReset
  | refused (c : ErrCode) (x : Txn) (ha : Refused s a) : Effect a s (refusedState s c x)
  | answered (w : Word) : Effect a s (s.answer w)
  | sampled (i : Nat) (v : Word) (hi : i < 1023) (ha : WritesSig a) : Effect a s (flagsAfterSigWrite (s.writeSig i v))
  | performed (i : Instr) (ha : Issues a i) (hc : commandRefusal s i = none) : Effect a s (Machine.performed i s)

/-- A read that no check refuses answers. -/
theorem readPlace_accepted {s : State} {addr : Addr} (h : refusalOf s (.read addr) = none) :
    ∃ w, readPlace (placeAt addr.toNat) (.read addr) s = s.answer w := by
  obtain ⟨hr, hc, hu⟩ := refusalOf_read_eq_none h
  rw [unreadable_eq_false_iff] at hr
  have hs := placeAt_spec addr.toNat
  generalize placeAt addr.toNat = p at hs
  cases p with
  | cmd => exact absurd hs (by omega)
  | reserved => simp only [List.mem_cons, List.not_mem_nil] at hs; omega
  | chipw k => exact ⟨_, if_pos (hc hs.1 (by omega))⟩
  | unpk i => exact ⟨_, if_pos (hu hs.1)⟩
  | _ => exact ⟨_, rfl⟩

/-- A transaction that no check refuses answers a read, writes a sample, or performs a command. -/
theorem transact_accepted {s : State} {x : Txn} (h : refusalOf s x = none) :
    ∃ t, transact x s = .next t ∧ Effect (.transact x) s t := by
  cases x with
  | read addr =>
    have ha := ((unreadable_eq_false_iff _).1 (refusalOf_read_eq_none h).1).1
    obtain ⟨w, hw⟩ := readPlace_accepted h
    exact ⟨_, by rw [transact, if_pos ((aligned_iff addr).2 ha), hw], .answered w⟩
  | write addr data =>
    rcases refusalOf_write_eq_none h with ⟨rfl, i, hd, hc⟩ | ⟨ha, hlo, hhi⟩
    · have hx : transact (.write 0 data) s = writeCmd data s := rfl
      exact ⟨_, by rw [hx, writeCmd, hd]; exact exec_accepted hc, .performed i ⟨data, rfl, hd⟩ hc⟩
    · obtain ⟨i, hi, rfl⟩ : ∃ i, i < 1023 ∧ addr = BitVec.ofNat 14 (0x1000 + 4 * i) :=
        ⟨(addr.toNat - 0x1000) / 4, by omega, BitVec.eq_of_toNat_eq (by rw [BitVec.toNat_ofNat]; omega)⟩
      refine ⟨_, ?_, .sampled i data hi ⟨i, data, hi, rfl⟩⟩
      rw [transact, if_pos ((aligned_iff _).2 ha), sig_addr hi, placeAt_sig hi, writePlace]

/-- A transaction taken to its end has one of these effects. -/
theorem transact_effect {x : Txn} {s t : State} (h : transact x s = .next t) : Effect (.transact x) s t := by
  cases hr : refusalOf s x with
  | none =>
    obtain ⟨u, hu, he⟩ := transact_accepted hr
    rwa [Host.Outcome.next.inj (h.symm.trans hu)]
  | some e =>
    rcases transact_cases x s with ⟨c, x', -, hx⟩ | ⟨addr, w, -, hx⟩ | ⟨i, v, hi, rfl, hx⟩ | ⟨w, i, rfl, hd, hc, hx⟩ <;>
      obtain rfl := Host.Outcome.next.inj (hx.symm.trans h)
    · exact .refused c x' ⟨e, hr⟩
    · exact .answered w
    · exact .sampled i v hi ⟨i, v, hi, rfl⟩
    · exact .performed i ⟨w, rfl, hd⟩ hc

/-- A step takes its action off the script and has one effect of that action. -/
theorem step_effect {s t : State} {a : HostAction} {rest : List HostAction} (hs : s.script = a :: rest) (h : step s = .next t) :
    Effect a (s.setScript rest) t := by
  rcases step_cases s with ⟨hnil, -⟩ | ⟨a', rest', hs', hcase⟩
  · simp [hnil] at hs
  · obtain ⟨rfl, rfl⟩ : a' = a ∧ rest' = rest := by simpa [hs'] using hs
    rcases hcase with ⟨x, y, -, ht⟩ | ⟨ha, ht⟩ | ⟨x, rfl, ht⟩ | ⟨x, rfl, ht⟩
    · cases ht.symm.trans h
    · obtain rfl := Host.Outcome.next.inj (ht.symm.trans h)
      exact .reset ha
    · obtain rfl := Host.Outcome.next.inj (ht.symm.trans h)
      exact .refused .badAccess x trivial
    · exact transact_effect (ht.symm.trans h)

end Sys2Proof.Machine
end

section
/-!
Frames: what a search, a command and a refusal leave of the memories and the flags (spec/10_state.md R14, R15, R16, R20, R21).
-/

namespace Sys2Proof.Machine

open Sys2Proof.Safety

@[simp] theorem search_sigAt (s : State) (i : Nat) : (search s).sigAt i = s.sigAt i := by
  simp only [State.sigAt, search_sigMem, search_widthCode, search_epoch]

@[simp] theorem search_chipAt (s : State) (i : Nat) : (search s).chipAt i = s.chipAt i := by
  simp only [State.chipAt, search_chipMem, search_epoch]

@[simp] theorem search_unpkAt (s : State) (i : Nat) : (search s).unpkAt i = s.unpkAt i := by
  simp only [State.unpkAt, search_unpkMem, search_epoch]

@[simp] theorem generate_sigAt (t1 t2 : Nat) (s : State) (i : Nat) : (generate t1 t2 s).sigAt i = s.sigAt i := by
  simp only [State.sigAt, generate_sigMem, generate_widthCode, generate_epoch]

@[simp] theorem generate_unpkAt (t1 t2 : Nat) (s : State) (i : Nat) : (generate t1 t2 s).unpkAt i = s.unpkAt i := by
  simp only [State.unpkAt, generate_unpkMem, generate_epoch]

/-- A search looks at nothing it writes, so a second search changes nothing. -/
@[simp] theorem search_search (s : State) : search (search s) = search s := by
  obtain ⟨k, x, d, n, r, h, h'⟩ :=
    search_agree (search_widthCode s) (search_epoch s) (search_sigMem s) (search_unpkMem s)
  rw [h', h]
  rfl

/-- CORR leaves what UNPACK and then SEARCH leave (R128). -/
theorem performed_corr (s : State) : performed .corr s = search (performed .unpack s) := by
  obtain ⟨k, x, d, n, r, h, h'⟩ :=
    search_agree (s := flagsInsideCorr (unpackAll s)) (t := performed .unpack s) rfl rfl rfl rfl
  exact h.trans h'.symm

end Sys2Proof.Machine
end

section
/-!
ACC holds the exact sum of a shift, strictly within its width (spec/42_correlator.md R126).
-/

namespace Sys2Proof.Machine

open Sys2Proof.Safety

/-- A sum of products with chips +1, 0 or -1 is at most as large as its terms allow. -/
theorem abs_dot_le {B : Int} {xs : List Int} {cs : List (BitVec 2)} (hB : 0 ≤ B) (hx : ∀ x ∈ xs, |x| ≤ B)
    (hc : ∀ c ∈ cs, |c.toInt| ≤ 1) : |dot xs cs| ≤ xs.length * B := by
  induction xs generalizing cs with
  | nil => simp [dot]
  | cons x xs ih =>
    have hlen : ((x :: xs).length : Int) * B = B + xs.length * B := by push_cast [List.length_cons]; ring
    cases cs with
    | nil => rw [show dot (x :: xs) [] = 0 from rfl, abs_zero]; positivity
    | cons c cs =>
      have hterm : |x * c.toInt| ≤ B := by
        rw [abs_mul]
        exact (mul_le_of_le_one_right (abs_nonneg x) (hc c List.mem_cons_self)).trans (hx x List.mem_cons_self)
      have hrest := ih (fun y hy => hx y (List.mem_cons_of_mem x hy)) (fun d hd => hc d (List.mem_cons_of_mem c hd))
      rw [dot, hlen]
      exact (abs_add_le _ _).trans (add_le_add hterm hrest)

theorem mem_rotated {k : Nat} {xs : List Int} {x : Int} (h : x ∈ rotated k xs) : x ∈ xs :=
  (List.mem_append.1 h).elim List.mem_of_mem_drop List.mem_of_mem_take

theorem length_rotated (k : Nat) (xs : List Int) : (rotated k xs).length = xs.length := by
  rw [rotated, List.length_append, List.length_drop, List.length_take]
  omega

theorem mem_sigValues {s : State} (hm : MemWf s) {x : Int} (h : x ∈ s.sigValues) : ∃ i, x = s.sigAt i := by
  obtain ⟨i, hi⟩ := List.mem_iff_getElem?.1 h
  rw [State.sigValues_getElem? hm] at hi
  exact ⟨i, (Option.some.inj (Option.ite_none_right_eq_some.1 hi).2).symm⟩

theorem mem_unpkValues {s : State} (hm : MemWf s) {c : BitVec 2} (h : c ∈ s.unpkValues) : ∃ i, i < 1023 ∧ c = s.unpkAt i := by
  obtain ⟨i, hi⟩ := List.mem_iff_getElem?.1 h
  rw [State.unpkValues_getElem? hm] at hi
  obtain ⟨hlt, hi⟩ := Option.ite_none_right_eq_some.1 hi
  exact ⟨i, hlt, (Option.some.inj hi).symm⟩

/-- The sum of a shift is at most 1023 times the largest magnitude of a sample. -/
theorem abs_corrSum_le {s : State} (hm : MemWf s) (hf : SamplesFit s) (hu : ChipsAreUnits s) (k : Nat) :
    |corrSum s k| ≤ 1023 * 2 ^ (s.width - 1) := by
  have hx : ∀ x ∈ rotated k s.sigValues, |x| ≤ 2 ^ (s.width - 1) := fun x hx => by
    obtain ⟨i, rfl⟩ := mem_sigValues hm (mem_rotated hx)
    exact abs_le.2 ⟨(hf i).1, (hf i).2.le⟩
  have hc : ∀ c ∈ s.unpkValues, |c.toInt| ≤ 1 := fun c hc => by
    obtain ⟨i, hi, rfl⟩ := mem_unpkValues hm hc
    rcases hu i hi with h | h <;> rw [h] <;> decide
  have h := abs_dot_le (by positivity) hx hc
  rw [length_rotated, State.length_sigValues] at h
  rw [corrSum]
  exact_mod_cast h

/-- So it never reaches the most negative value of ACC, nor its negation. -/
theorem abs_corrSum_lt {s : State} (hm : MemWf s) (hf : SamplesFit s) (hu : ChipsAreUnits s) (k : Nat) :
    |corrSum s k| < 2 ^ (s.width + 9) := by
  have hle := abs_corrSum_le hm hf hu k
  have hpos : (0 : Int) < 2 ^ (s.width - 1) := by positivity
  have hpow : (2 : Int) ^ (s.width + 9) = 1024 * 2 ^ (s.width - 1) := by
    rw [show s.width + 9 = (s.width - 1) + 10 by simp only [State.width, Config.widthOf]; omega, pow_add]
    ring
  omega

/-- ACC takes the sum of a shift exactly. -/
theorem accAt_eq_corrSum {s : State} (hm : MemWf s) (hf : SamplesFit s) (hu : ChipsAreUnits s) (k : Nat) :
    accAt s k = corrSum s k := by
  have h := abs_lt.1 (abs_corrSum_lt hm hf hu k)
  exact narrow_of_fits (by omega) ⟨h.1.le, h.2⟩

end Sys2Proof.Machine
end

section
/-!
The invariants of spec/10_state.md R34 hold at reset and are kept by every effect a host action can have, hence by every step.
-/

namespace Sys2Proof.Machine

open Sys2Proof.Safety

/-! ### The error registers and the port -/

/-- The error registers, the script and the words returned take the values given: all that a refusal, CLRERR, a read and the host's
own progress through its script write. -/
def State.setPort (s : State) (e : Bool) (c : BitVec 4) (w : Bool) (v : BitVec 16) (acts : List HostAction) (ws : List Word) : State :=
  { s with err := e, errcode := c, errwr := w, errval := v, script := acts, returned := ws }

theorem search_setPort {s : State} (h : search s = s) (e : Bool) (c : BitVec 4) (w : Bool) (v : BitVec 16)
    (acts : List HostAction) (ws : List Word) : search (s.setPort e c w v acts ws) = s.setPort e c w v acts ws := by
  obtain ⟨k, x, d, n, r, hs, ht⟩ := search_agree (s := s) (t := s.setPort e c w v acts ws) rfl rfl rfl rfl
  rw [h] at hs
  rw [ht]
  conv_rhs => rw [hs]
  simp only [State.setOutcome, State.setSum, State.setPort, State.width]

/-- The invariants speak of the error registers only in their last two items, and of the port not at all. -/
theorem State.setPort_inv {s : State} (h : Inv s) {e : Bool} {c : BitVec 4} {w : Bool} {v : BitVec 16}
    (hno : e = false → c = 0 ∧ w = false ∧ v = 0) (hcode : e = true → 1 ≤ c.toNat ∧ c.toNat ≤ 5)
    (acts : List HostAction) (ws : List Word) : Inv (s.setPort e c w v acts ws) :=
  { h with
    doneIsCurrent := fun hd => search_setPort (h.doneIsCurrent hd) ..
    noErrorRegisters := hno
    errorCode := hcode }

theorem State.setScript_inv {s : State} (h : Inv s) (acts : List HostAction) : Inv (s.setScript acts) :=
  State.setPort_inv h h.noErrorRegisters h.errorCode acts s.returned

theorem State.answer_inv {s : State} (h : Inv s) (w : Word) : Inv (s.answer w) :=
  State.setPort_inv h h.noErrorRegisters h.errorCode s.script (w :: s.returned)

theorem State.clearError_inv {s : State} (h : Inv s) : Inv s.clearError :=
  State.setPort_inv h (e := false) (fun _ => ⟨rfl, rfl, rfl⟩) nofun s.script s.returned

/-- A refusal records a code of 1 to 5, or leaves the one that is held. -/
theorem refusedState_inv {s : State} (h : Inv s) (c : ErrCode) (x : Txn) : Inv (refusedState s c x) := by
  refine State.setPort_inv h (e := true) nofun (fun _ => ?_) s.script _
  split
  case isTrue he => exact h.errorCode he
  case isFalse => exact c.bits_range

/-! ### Resets and writes of samples -/

/-- With every register at its reset value only the memories need a premise. -/
theorem State.resetRegisters_inv {s : State} (hm : MemWf s) (hf : SamplesFit s) : Inv s.resetRegisters where
  memWf := hm
  samplesFit := hf
  accFits := ⟨neg_lt_zero.2 (by positivity), by positivity⟩
  lfsrAtPreset := ⟨rfl, rfl⟩
  chipsOfTaps := nofun
  unpackedHasChips := nofun
  unpackedMatches := nofun
  doneHasUnpacked := nofun
  doneIsCurrent := nofun
  notDetected := nofun
  detected := nofun
  chipcntAtEnds := .inl rfl
  shiftInRange := Nat.zero_le _
  resultInRange := .inr rfl
  noErrorRegisters := fun _ => ⟨rfl, rfl, rfl⟩
  errorCode := nofun

/-- A hard reset leaves free samples, which are of the sample width. -/
theorem State.hardReset_inv (s : State) : Inv s.hardReset :=
  State.resetRegisters_inv (s := s.forgetMemories) ⟨rfl, rfl, rfl⟩ (resetSample_fits s.widthCode s.epoch.next)

theorem State.writeSig_samplesFit {s : State} (h : SamplesFit s) (i : Nat) (v : Word) : SamplesFit (s.writeSig i v) := by
  intro j
  rw [State.sigAt, State.writeSig_sigMem, Mem.find_store]
  split
  case isTrue => exact narrow_fits (by simp [State.width, Config.widthOf]) _
  case isFalse => exact h j

/-- A write to SIG clears DONE, so nothing has to be shown of the result. -/
theorem State.writeSig_inv {s : State} (h : Inv s) {i : Nat} (hi : i < 1023) (v : Word) : Inv (flagsAfterSigWrite (s.writeSig i v)) :=
  { h with
    memWf := ⟨h.memWf.1, h.memWf.2.1, Mem.wf_store _ h.memWf.2.2 hi⟩
    samplesFit := State.writeSig_samplesFit h.samplesFit i v
    doneHasUnpacked := nofun
    doneIsCurrent := nofun
    notDetected := nofun
    detected := nofun }

/-! ### GEN and UNPACK -/

/-- The two shift registers are at all ones again after the 1023 steps of a GEN (R101). -/
theorem stepsOf_chips_preset :
    stepsOf next1 Config.chips Config.lfsrPreset = 0x3FF ∧ stepsOf next2 Config.chips Config.lfsrPreset = 0x3FF := by
  decide +kernel

theorem generate_memWf {s : State} (h : MemWf s) (t1 t2 : Nat) : MemWf (generate t1 t2 s) :=
  ⟨genRun_chipMem_wf (s := genStart t1 t2 s) h.1, by simpa using h.2.1, by simpa using h.2.2⟩

/-- An accepted GEN clears UVALID and DONE, and its chips are those of its taps. -/
theorem generate_inv {s : State} (h : Inv s) {t1 t2 : Nat} (h1 : 1 ≤ t1 ∧ t1 ≤ 10) (h2 : 1 ≤ t2 ∧ t2 ≤ 10) :
    Inv (generate t1 t2 s) where
  memWf := generate_memWf h.memWf t1 t2
  samplesFit i := by simpa [State.width] using h.samplesFit i
  accFits := by simpa [State.width] using h.accFits
  lfsrAtPreset := by simpa using stepsOf_chips_preset
  chipsOfTaps _ := by
    have n1 : (BitVec.ofNat 4 t1).toNat = t1 := by rw [BitVec.toNat_ofNat]; omega
    have n2 : (BitVec.ofNat 4 t2).toNat = t2 := by rw [BitVec.toNat_ofNat]; omega
    rw [generate_t1, generate_t2, generate_chipcnt, n1, n2]
    exact ⟨h1, h2, rfl, generate_chipAt h1.2 h2.2 s 1023, fun k hk => by rw [generate_chipAt h1.2 h2.2, if_pos hk]⟩
  unpackedHasChips := by simp
  unpackedMatches := by simp
  doneHasUnpacked := by simp
  doneIsCurrent := by simp
  notDetected := by simp
  detected := by simp
  chipcntAtEnds := by simp
  shiftInRange := by simpa using h.shiftInRange
  resultInRange := by simpa using h.resultInRange
  noErrorRegisters := by simpa using h.noErrorRegisters
  errorCode := by simpa using h.errorCode

/-- An accepted UNPACK makes UNPK match CHIPMEM and clears DONE. -/
theorem performed_unpack_inv {s : State} (h : Inv s) (hc : s.cvalid = true) : Inv (performed .unpack s) :=
  { h with
    memWf := unpackAll_memWf h.memWf
    unpackedHasChips := fun _ => hc
    unpackedMatches := fun _ i hi => by
      have hu : (performed .unpack s).unpkAt i = chipValue (s.chipAt i) := (unpackAll_unpkAt h.memWf i).trans (if_pos hi)
      rw [hu]
      exact chipValue_toInt _
    doneHasUnpacked := nofun
    doneIsCurrent := nofun
    notDetected := nofun
    detected := nofun }

/-! ### SEARCH -/

/-- While UVALID = 1 every unpacked chip is +1 or -1. -/
theorem chipsAreUnits_of_inv {s : State} (h : Inv s) (hu : s.uvalid = true) : ChipsAreUnits s := by
  intro i hi
  have := h.unpackedMatches hu i hi
  cases hp : s.chipAt i <;> simp_all

theorem signedShift_toInt {k : Nat} (hk : k < 1023) (a : Int) : (BitVec.ofInt 16 (signedShift k a)).toInt = signedShift k a := by
  have : -1022 ≤ signedShift k a ∧ signedShift k a ≤ 1022 := by rw [signedShift]; split <;> omega
  exact BitVec.toInt_ofInt_eq_self (by decide) (by omega) (by omega)

/-- The result registers of a search, in numbers (R123, R124, R125). -/
structure SearchResult (t : State) : Prop where
  shiftInRange : t.shift.toNat ≤ 1022
  resultInRange : (-1022 ≤ t.result.toInt ∧ t.result.toInt ≤ 1022) ∨ t.result.toInt = 10000
  notDetected : t.det = false → t.result.toInt = 10000 ∧ t.neg = false ∧ t.shift.toNat = 1022
  detected : t.det = true →
    Exceeds t.acc ∧ t.result.toInt.natAbs = t.shift.toNat ∧ (t.neg = true ↔ t.acc < 0) ∧
      t.result.toInt = if t.neg then -(t.shift.toNat : Int) else (t.shift.toNat : Int)

theorem search_result (s : State) : SearchResult (search s) := by
  rcases search_outcome s with ⟨j, hj, hq, -, hshift, hacc, hdet, hneg, hresult⟩ | ⟨-, hshift, -, hdet, hneg, hresult⟩
  · have hk : (search s).shift.toNat = j := by rw [hshift, BitVec.toNat_ofNat]; omega
    have hr : (search s).result.toInt = signedShift j (search s).acc := by rw [hresult, hacc, signedShift_toInt hj]
    have hn : (search s).neg = true ↔ (search s).acc < 0 := by rw [hneg, hacc, negFlag, decide_eq_true_eq]
    refine ⟨by omega, .inl ?_, by simp [hdet], fun _ => ⟨?_, ?_, hn, ?_⟩⟩
    · rw [hr, signedShift]; split <;> omega
    · rw [hacc]; exact (qualifies_iff _).1 hq
    · rw [hr, hk, signedShift]; split <;> omega
    · simp only [hr, hk, hn, signedShift]; split_ifs <;> omega
  · have hr : (search s).result.toInt = 10000 := by rw [hresult]; rfl
    have hk : (search s).shift.toNat = 1022 := by rw [hshift]; rfl
    exact ⟨hk.le, .inr hr, fun _ => ⟨hr, hneg, hk⟩, by simp [hdet]⟩

theorem search_acc (s : State) : ∃ k, (search s).acc = accAt s k := by
  rcases search_outcome s with ⟨j, -, -, -, -, hacc, -⟩ | ⟨-, -, hacc, -⟩
  · exact ⟨j, hacc⟩
  · exact ⟨1022, hacc⟩

/-- An accepted SEARCH leaves its own outcome, which depends on nothing that it writes. -/
theorem search_inv {s : State} (h : Inv s) (hu : s.uvalid = true) : Inv (search s) where
  memWf := by simpa [MemWf] using h.memWf
  samplesFit i := by simpa [State.width] using h.samplesFit i
  accFits := by
    obtain ⟨k, hk⟩ := search_acc s
    have hchips := chipsAreUnits_of_inv h hu
    simp only [State.width, search_widthCode, hk, accAt_eq_corrSum h.memWf h.samplesFit hchips]
    exact abs_lt.1 (abs_corrSum_lt h.memWf h.samplesFit hchips k)
  lfsrAtPreset := by simpa using h.lfsrAtPreset
  chipsOfTaps := by simpa using h.chipsOfTaps
  unpackedHasChips := by simpa using h.unpackedHasChips
  unpackedMatches := by simpa using h.unpackedMatches
  doneHasUnpacked _ := by simpa using hu
  doneIsCurrent _ := search_search s
  notDetected _ := (search_result s).notDetected
  detected _ := (search_result s).detected
  chipcntAtEnds := by simpa using h.chipcntAtEnds
  shiftInRange := (search_result s).shiftInRange
  resultInRange := (search_result s).resultInRange
  noErrorRegisters := by simpa using h.noErrorRegisters
  errorCode := by simpa using h.errorCode

/-! ### Every step -/

/-- Every command its own check accepts. -/
theorem performed_inv {s : State} (h : Inv s) {i : Instr} (hc : commandRefusal s i = none) : Inv (performed i s) := by
  cases i with
  | nop => exact h
  | gen t1 t2 =>
    simp only [commandRefusal, ite_eq_left_iff, reduceCtorEq, imp_false, not_not] at hc
    obtain ⟨h1, h1', h2, h2'⟩ := hc
    exact generate_inv h ⟨h1, h1'⟩ ⟨h2, h2'⟩
  | unpack => exact performed_unpack_inv h (by simpa [commandRefusal] using hc)
  | search => exact search_inv h (by simpa [commandRefusal] using hc)
  | corr =>
    rw [performed_corr]
    exact search_inv (performed_unpack_inv h (by simpa [commandRefusal] using hc)) rfl
  | clrerr => exact State.clearError_inv h
  | srst => exact State.resetRegisters_inv h.memWf h.samplesFit

/-- Every effect of a host action. -/
theorem effect_inv {a : HostAction} {s t : State} (h : Inv s) (he : Effect a s t) : Inv t := by
  cases he with
  | reset => exact State.hardReset_inv s
  | refused c x => exact refusedState_inv h c x
  | answered w => exact State.answer_inv h w
  | sampled i v hi => exact State.writeSig_inv h hi v
  | performed i _ hc => exact performed_inv h hc

/-- Settles O54: a step holds the state or has one effect of its action, and each effect keeps the invariants. -/
theorem stepKeepsInvariants : Obligations.StepKeepsInvariants := by
  intro s t h hstep
  cases hs : s.script with
  | nil =>
    have hidle : step s = .next s := by rw [step, nextAction, hs]
    rwa [← Host.Outcome.next.inj (hidle.symm.trans hstep)]
  | cons a rest => exact effect_inv (State.setScript_inv h rest) (step_effect hs hstep)

/-- Settles O53: the reset state is a state with its registers reset, and its samples are free samples. -/
theorem resetMeetsInvariants : Obligations.ResetMeetsInvariants :=
  State.resetRegisters_inv (s := State.reset) State.reset_memories_wf (resetSample_fits _ _)

end Sys2Proof.Machine
end

section
/-!
The register views (spec/10_state.md R25 to R32): a word assembled from fields, each read back from its own bits, with 0 between them.
-/

namespace Sys2Proof.Machine

open Sys2Proof.Safety

/-! ### Fields of a word -/

/-- The n-bit value `x` in bits n + k - 1 to k of an otherwise zero word. -/
def fieldAt {n : Nat} (x : BitVec n) (k : Nat) : Word :=
  x.setWidth 32 <<< k

theorem fieldAt_zero {n : Nat} (x : BitVec n) : fieldAt x 0 = x.setWidth 32 :=
  BitVec.shiftLeft_zero _

/-- A flag is a field of one bit. -/
theorem flagBit_eq_fieldAt (b : Bool) (n : Nat) : flagBit b n = fieldAt (BitVec.ofBool b) n := by
  cases b
  · simp [flagBit, fieldAt]
  · refine BitVec.eq_of_toNat_eq ?_
    simp only [flagBit, if_true, fieldAt, BitVec.toNat_shiftLeft, BitVec.toNat_ofNat, Nat.shiftLeft_eq]
    simp

theorem getLsbD_fieldAt {n : Nat} (x : BitVec n) (k i : Nat) :
    (fieldAt x k).getLsbD i = (decide (i < 32 ∧ k ≤ i) && x.getLsbD (i - k)) := by
  rw [fieldAt, BitVec.getLsbD_shiftLeft, BitVec.getLsbD_setWidth]
  by_cases hi : i < 32
  · by_cases hk : i < k
    · simp [hi, hk, show ¬k ≤ i by omega]
    · simp [hi, hk, show k ≤ i by omega, show i - k < 32 by omega]
  · simp [hi]

theorem getLsbD_flagBit {n : Nat} (hn : n < 32) (b : Bool) (i : Nat) : (flagBit b n).getLsbD i = (decide (i = n) && b) := by
  rw [flagBit_eq_fieldAt, getLsbD_fieldAt, BitVec.getLsbD_ofBool, ← Bool.and_assoc, ← Bool.decide_and]
  congr 2
  exact propext ⟨by omega, by omega⟩

/-- A field read from its own bits. -/
theorem extractLsb'_fieldAt_same {n : Nat} (x : BitVec n) (k : Nat) (h : k + n ≤ 32) : (fieldAt x k).extractLsb' k n = x := by
  ext i hi
  rw [BitVec.getElem_extractLsb', getLsbD_fieldAt]
  simp [show k + i < 32 by omega, BitVec.getLsbD_eq_getElem hi]

/-- The bits below and above a field are 0. -/
theorem extractLsb'_fieldAt_other {n : Nat} (x : BitVec n) (k lo len : Nat) (h : lo + len ≤ k ∨ k + n ≤ lo) :
    (fieldAt x k).extractLsb' lo len = 0 := by
  ext i hi
  rw [BitVec.getElem_extractLsb', getLsbD_fieldAt]
  rcases h with h | h
  · simp [show ¬k ≤ lo + i by omega]
  · simp [BitVec.getLsbD_of_ge x (lo + i - k) (by omega)]

/-! ### The views -/

theorem shiftWord_eq_field (s : State) : shiftWord s = fieldAt s.shift 0 :=
  (fieldAt_zero s.shift).symm

theorem genstatWord_eq_fields (s : State) : genstatWord s = fieldAt s.t1 0 ||| fieldAt s.t2 8 ||| fieldAt s.chipcnt 16 := by
  rw [genstatWord, fieldAt_zero, fieldAt, fieldAt]

theorem lfsrWord_eq_fields (s : State) : lfsrWord s = fieldAt s.g1 0 ||| fieldAt s.g2 16 := by
  rw [lfsrWord, fieldAt_zero, fieldAt]

theorem errinfoWord_eq_fields (s : State) :
    errinfoWord s = fieldAt s.errcode 0 ||| fieldAt (BitVec.ofBool s.errwr) 4 ||| fieldAt s.errval 16 := by
  rw [errinfoWord, flagBit_eq_fieldAt, fieldAt_zero s.errcode, fieldAt, fieldAt]

theorem width_le (s : State) : s.width ≤ 22 := by
  have := s.widthCode.isLt
  simp only [State.width, Config.widthOf]
  omega

/-- CONFIG as a number: no width of R5 overflows its field. -/
theorem configWord_toNat (s : State) : (configWord s).toNat = 0x000CF3FF + s.width * 0x00100000 := by
  have hw := width_le s
  rw [configWord_eq, BitVec.toNat_ofNat]
  omega

/-- SUM shows ACC exactly: ACC has at most 32 bits (R27). -/
theorem sumWord_toInt {s : State} (h : Fits (s.width + 10) s.acc) : (sumWord s).toInt = s.acc := by
  have hw := width_le s
  have hpow : (2 : Int) ^ (s.width + 10 - 1) ≤ 2 ^ 31 := pow_le_pow_right₀ (by norm_num) (by omega)
  obtain ⟨hlo, hhi⟩ := h
  exact BitVec.toInt_ofInt_eq_self (by decide) (by omega) (by omega)

/-- A write to a read-only view is refused (R25, R32). -/
theorem transact_write_readOnly {s : State} {addr : Addr} {v : Word} (h : transact (.write addr v) s = .next (refuse .badAccess (.write addr v) s))
    (h0 : addr ≠ 0) : transact (.write addr v) s = .next (errorState s 5 true (addr.setWidth 16)) := by
  rw [h, refuse, raiseError, Txn.errVal, if_neg h0]
  rfl

/-- Settles O19: each flag is one bit of STATUS, and bits 31:6 are outside all six. -/
theorem statusViewShowsFlags : Obligations.StatusViewShowsFlags := by
  refine ⟨fun s => ⟨statusWord s, rfl, ?_⟩, rfl, fun s v => transact_write_readOnly rfl (by decide)⟩
  simp only [statusWord, BitVec.getLsbD_or, getLsbD_flagBit, Nat.reduceLT]
  refine ⟨by simp, by simp, by simp, by simp, by simp, by simp, fun n hn => ?_⟩
  have hne : ∀ k, k ≤ 5 → ¬n = k := fun k hk => by omega
  simp [hne]

/-- Settles O20: sign extension keeps RESULT, and ACC has at most 32 bits. -/
theorem resultAndSumViews : Obligations.ResultAndSumViews := fun s =>
  ⟨⟨resultWord s, rfl, BitVec.toInt_signExtend_of_le (by decide)⟩, fun h => ⟨sumWord s, rfl, sumWord_toInt h⟩⟩

/-- Settles O21: each view is the union of its fields, which do not overlap. -/
theorem registerViewFields : Obligations.RegisterViewFields := by
  intro s
  refine ⟨⟨shiftWord s, rfl, ?_⟩, ⟨genstatWord s, rfl, ?_⟩, ⟨lfsrWord s, rfl, ?_⟩, ⟨errinfoWord s, rfl, ?_⟩⟩
  · simp [shiftWord_eq_field, extractLsb'_fieldAt_same, extractLsb'_fieldAt_other]
  · simp [genstatWord_eq_fields, BitVec.extractLsb'_or, extractLsb'_fieldAt_same, extractLsb'_fieldAt_other]
  · simp [lfsrWord_eq_fields, BitVec.extractLsb'_or, extractLsb'_fieldAt_same, extractLsb'_fieldAt_other]
  · simp [errinfoWord_eq_fields, BitVec.extractLsb'_or, extractLsb'_fieldAt_same, extractLsb'_fieldAt_other, -BitVec.getLsbD_eq_getElem, getLsbD_fieldAt]

/-- The fields of a word given as CONFIG is, with any width that fits six bits. -/
theorem configFields {w : Word} {n : Nat} (hw : w.toNat = 0x000CF3FF + n * 0x00100000) (hn : n < 64) :
    (w.extractLsb' 0 10).toNat = 1023 ∧ (w.extractLsb' 10 10).toNat = 828 ∧ (w.extractLsb' 20 6).toNat = n ∧
      (w.extractLsb' 26 6).toNat = 0 := by
  simp only [BitVec.extractLsb'_toNat, hw, Nat.shiftRight_eq_div_pow]
  omega

/-- Settles O22: the word as a number, and its fields. -/
theorem configViewHoldsConstants : Obligations.ConfigViewHoldsConstants := fun s =>
  ⟨⟨configWord s, rfl, configWord_toNat s, configFields (configWord_toNat s) (by have := width_le s; omega)⟩,
    fun _ => transact_write_readOnly rfl (by decide)⟩

end Sys2Proof.Machine
end

section
/-!
Who changes what (spec/10_state.md R14 to R16, R20, R21; spec/20_memory.md R53): each memory and each flag, over the effects a host
action can have.
-/

namespace Sys2Proof.Machine

open Sys2Proof.Safety

/-! ### Memories -/

@[simp] theorem performed_sigAt (i : Instr) (s : State) (j : Nat) : (performed i s).sigAt j = s.sigAt j := by
  cases i with
  | gen t1 t2 => exact generate_sigAt t1 t2 s j
  | search => exact search_sigAt s j
  | corr => exact search_sigAt (flagsInsideCorr (unpackAll s)) j
  | nop | unpack | clrerr | srst => rfl

/-- GEN alone writes CHIPMEM. -/
theorem performed_chipAt {i : Instr} (hgen : ∀ t1 t2, i ≠ .gen t1 t2) (s : State) (j : Nat) : (performed i s).chipAt j = s.chipAt j := by
  cases i with
  | gen t1 t2 => exact absurd rfl (hgen t1 t2)
  | search => exact search_chipAt s j
  | corr => exact search_chipAt (flagsInsideCorr (unpackAll s)) j
  | nop | unpack | clrerr | srst => rfl

/-- UNPACK and CORR alone write UNPK. -/
theorem performed_unpkAt {i : Instr} (hunpack : i ≠ .unpack) (hcorr : i ≠ .corr) (s : State) (j : Nat) :
    (performed i s).unpkAt j = s.unpkAt j := by
  cases i with
  | gen t1 t2 => exact generate_unpkAt t1 t2 s j
  | search => exact search_unpkAt s j
  | unpack => exact absurd rfl hunpack
  | corr => exact absurd rfl hcorr
  | nop | clrerr | srst => rfl

/-- Settles O55: of the effects but a hard reset, only a sample written and a command performed touch a memory. -/
theorem memoriesChangeOnlyByTheirWriters : Obligations.MemoriesChangeOnlyByTheirWriters := by
  intro s t a rest hs hstep hreset
  cases step_effect hs hstep with
  | reset ha => exact absurd ha hreset
  | refused | answered => exact ⟨fun _ _ => rfl, fun _ _ => rfl, fun _ _ _ => rfl⟩
  | sampled i v hi ha => exact ⟨fun hsig => absurd ha hsig, fun _ _ => rfl, fun _ _ _ => rfl⟩
  | performed i ha =>
    refine ⟨fun _ => performed_sigAt i _, fun hgen => performed_chipAt ?_ _, fun hunpack hcorr => performed_unpkAt ?_ ?_ _⟩
    · rintro t1 t2 rfl; exact hgen t1 t2 ha
    · rintro rfl; exact hunpack ha
    · rintro rfl; exact hcorr ha

/-! ### Flags -/

/-- A flag that is kept, set under `p` or cleared under `q` is set only under `p` and cleared only under `q`. -/
theorem flag_changes {old new : Bool} {p q : Prop} (h : new = old ∨ (new = true ∧ p) ∨ (new = false ∧ q)) :
    (old = false → new = true → p) ∧ (old = true → new = false → q) := by
  rcases h with rfl | ⟨rfl, hp⟩ | ⟨rfl, hq⟩
  · exact ⟨fun h h' => absurd (h.symm.trans h') nofun, fun h h' => absurd (h.symm.trans h') nofun⟩
  · exact ⟨fun _ _ => hp, nofun⟩
  · exact ⟨nofun, fun _ _ => hq⟩

/-- NEG after a search: a negative sum that qualified (R120). -/
theorem search_neg_true {u : State} (h : (search u).neg = true) :
    (search u).det = true ∧ Exceeds (search u).acc ∧ (search u).acc < 0 := by
  have hr := search_result u
  cases hd : (search u).det with
  | false => rw [(hr.notDetected hd).2.1] at h; cases h
  | true =>
    obtain ⟨hacc, -, hneg, -⟩ := hr.detected hd
    exact ⟨rfl, hacc, hneg.1 h⟩

section
variable {a : HostAction} {s t : State} (h : Effect a s t)
include h

theorem effect_cvalid :
    t.cvalid = s.cvalid ∨ (t.cvalid = true ∧ ∃ t1 t2, Issues a (.gen t1 t2)) ∨ (t.cvalid = false ∧ (Resets a ∨ Issues a .srst)) := by
  cases h with
  | reset ha => exact .inr (.inr ⟨rfl, .inl ha⟩)
  | refused | answered | sampled => exact .inl rfl
  | performed i ha =>
    cases i with
    | gen t1 t2 => exact .inr (.inl ⟨generate_cvalid t1 t2 s, t1, t2, ha⟩)
    | srst => exact .inr (.inr ⟨rfl, .inr ha⟩)
    | search | corr => exact .inl (search_cvalid _)
    | nop | unpack | clrerr => exact .inl rfl

theorem effect_uvalid :
    t.uvalid = s.uvalid ∨ (t.uvalid = true ∧ (Issues a .unpack ∨ Issues a .corr)) ∨
      (t.uvalid = false ∧ ((∃ t1 t2, Issues a (.gen t1 t2)) ∨ Resets a ∨ Issues a .srst)) := by
  cases h with
  | reset ha => exact .inr (.inr ⟨rfl, .inr (.inl ha)⟩)
  | refused | answered | sampled => exact .inl rfl
  | performed i ha =>
    cases i with
    | gen t1 t2 => exact .inr (.inr ⟨generate_uvalid t1 t2 s, .inl ⟨t1, t2, ha⟩⟩)
    | unpack => exact .inr (.inl ⟨rfl, .inl ha⟩)
    | corr => exact .inr (.inl ⟨search_uvalid _, .inr ha⟩)
    | srst => exact .inr (.inr ⟨rfl, .inr (.inr ha)⟩)
    | search => exact .inl (search_uvalid s)
    | nop | clrerr => exact .inl rfl

theorem effect_done :
    t.done = s.done ∨ (t.done = true ∧ (Issues a .search ∨ Issues a .corr)) ∨
      (t.done = false ∧
        ((∃ t1 t2, Issues a (.gen t1 t2)) ∨ Issues a .unpack ∨ WritesSig a ∨ Resets a ∨ Issues a .srst)) := by
  cases h with
  | reset ha => exact .inr (.inr ⟨rfl, .inr (.inr (.inr (.inl ha)))⟩)
  | sampled i v hi ha => exact .inr (.inr ⟨rfl, .inr (.inr (.inl ha))⟩)
  | refused | answered => exact .inl rfl
  | performed i ha =>
    cases i with
    | gen t1 t2 => exact .inr (.inr ⟨generate_done t1 t2 s, .inl ⟨t1, t2, ha⟩⟩)
    | unpack => exact .inr (.inr ⟨rfl, .inr (.inl ha)⟩)
    | search => exact .inr (.inl ⟨search_done s, .inl ha⟩)
    | corr => exact .inr (.inl ⟨search_done _, .inr ha⟩)
    | srst => exact .inr (.inr ⟨rfl, .inr (.inr (.inr (.inr ha)))⟩)
    | nop | clrerr => exact .inl rfl

/-- DET and NEG: either the effect is that of a search, whose outcome they are, or they are kept, or both are cleared. -/
theorem effect_det_neg :
    (t.det = s.det ∧ t.neg = s.neg) ∨ ((Issues a .search ∨ Issues a .corr) ∧ ∃ u, t = search u) ∨
      ((t.det = false ∧ t.neg = false) ∧ (Resets a ∨ Issues a .srst)) := by
  cases h with
  | reset ha => exact .inr (.inr ⟨⟨rfl, rfl⟩, .inl ha⟩)
  | refused | answered | sampled => exact .inl ⟨rfl, rfl⟩
  | performed i ha =>
    cases i with
    | gen t1 t2 => exact .inl ⟨generate_det t1 t2 s, generate_neg t1 t2 s⟩
    | search => exact .inr (.inl ⟨.inl ha, s, rfl⟩)
    | corr => exact .inr (.inl ⟨.inr ha, _, rfl⟩)
    | srst => exact .inr (.inr ⟨⟨rfl, rfl⟩, .inr ha⟩)
    | nop | unpack | clrerr => exact .inl ⟨rfl, rfl⟩

theorem effect_det :
    t.det = s.det ∨ (t.det = true ∧ (Issues a .search ∨ Issues a .corr) ∧ Exceeds t.acc) ∨
      (t.det = false ∧ (Issues a .search ∨ Issues a .corr ∨ Resets a ∨ Issues a .srst)) := by
  rcases effect_det_neg h with ⟨hdet, -⟩ | ⟨hi, u, rfl⟩ | ⟨⟨hdet, -⟩, hi⟩
  · exact .inl hdet
  · cases hd : (search u).det with
    | true => exact .inr (.inl ⟨rfl, hi, ((search_result u).detected hd).1⟩)
    | false => exact .inr (.inr ⟨rfl, or_assoc.1 (.inl hi)⟩)
  · exact .inr (.inr ⟨hdet, .inr (.inr hi)⟩)

theorem effect_neg :
    t.neg = s.neg ∨ (t.neg = true ∧ (Issues a .search ∨ Issues a .corr) ∧ t.det = true ∧ Exceeds t.acc ∧ t.acc < 0) ∨
      (t.neg = false ∧ (Issues a .search ∨ Issues a .corr ∨ Resets a ∨ Issues a .srst)) := by
  rcases effect_det_neg h with ⟨-, hneg⟩ | ⟨hi, u, rfl⟩ | ⟨⟨-, hneg⟩, hi⟩
  · exact .inl hneg
  · cases hn : (search u).neg with
    | true => exact .inr (.inl ⟨rfl, hi, search_neg_true hn⟩)
    | false => exact .inr (.inr ⟨rfl, or_assoc.1 (.inl hi)⟩)
  · exact .inr (.inr ⟨hneg, .inr (.inr hi)⟩)

theorem effect_err :
    t.err = s.err ∨ (t.err = true ∧ Refused s a) ∨ (t.err = false ∧ (Issues a .clrerr ∨ Issues a .srst ∨ Resets a)) := by
  cases h with
  | reset ha => exact .inr (.inr ⟨rfl, .inr (.inr ha)⟩)
  | refused c x ha => exact .inr (.inl ⟨rfl, ha⟩)
  | answered | sampled => exact .inl rfl
  | performed i ha =>
    cases i with
    | clrerr => exact .inr (.inr ⟨rfl, .inl ha⟩)
    | srst => exact .inr (.inr ⟨rfl, .inr (.inl ha)⟩)
    | gen t1 t2 => exact .inl (generate_err t1 t2 s)
    | search | corr => exact .inl (search_err _)
    | nop | unpack => exact .inl rfl

end

/-- Settles O56: flag by flag, by the effects of the step's action. -/
theorem flagsChangeOnlyAsListed : Obligations.FlagsChangeOnlyAsListed := by
  intro s t a rest hs hstep
  have he := step_effect hs hstep
  obtain ⟨cvalidSet, cvalidCleared⟩ := flag_changes (effect_cvalid he)
  obtain ⟨uvalidSet, uvalidCleared⟩ := flag_changes (effect_uvalid he)
  obtain ⟨doneSet, doneCleared⟩ := flag_changes (effect_done he)
  obtain ⟨detSet, detCleared⟩ := flag_changes (effect_det he)
  obtain ⟨negSet, negCleared⟩ := flag_changes (effect_neg he)
  obtain ⟨errSet, errCleared⟩ := flag_changes (effect_err he)
  exact ⟨cvalidSet, cvalidCleared, uvalidSet, uvalidCleared, doneSet, doneCleared, detSet, detCleared, negSet, negCleared,
    fun h0 h1 => refused_setScript (errSet h0 h1), errCleared⟩

/-- Settles O5: the address 0x0000 is aligned and is CMD. -/
theorem stepRunsDecodedCommand : Obligations.StepRunsDecodedCommand := by
  intro s w i rest hs hd
  have hstep : step s = writeCmd w (s.setScript rest) := by rw [step, nextAction, hs]; rfl
  rw [hstep, writeCmd, hd]

end Sys2Proof.Machine
end

section
/-!
Steps of the script and of a system of instances (spec/20_memory.md R42, R50, R56, R58).
-/

namespace Sys2Proof.Machine

/-- A step is the first action of the script, on the state without it (R50). -/
theorem step_of_script {s : State} {a : HostAction} {rest : List HostAction} (hs : s.script = a :: rest) :
    step s = hostAct a (s.setScript rest) := by
  rw [step, nextAction, hs]

/-- A step of the system that completes puts the next state of instance `k` in its place, if there is such an instance. -/
theorem stepInstance_eq_next {k : Nat} {sys sys' : List State} (h : stepInstance k sys = .next sys') :
    (sys[k]? = none ∧ sys' = sys) ∨ ∃ s t, sys[k]? = some s ∧ step s = .next t ∧ sys' = sys.set k t := by
  rw [stepInstance] at h
  cases hk : sys[k]? with
  | none => exact .inl ⟨rfl, by simpa [hk] using h.symm⟩
  | some s =>
    cases ht : step s with
    | next t => exact .inr ⟨s, t, rfl, ht, by simpa [hk, ht] using h.symm⟩
    | fault r | refused r => simp [hk, ht] at h

/-- Settles O8: the overlap is the action the step takes, and it has no next state. -/
theorem overlapStops : Obligations.OverlapStops :=
  fun _ _ _ _ hs => step_of_script hs

/-- Settles O17: a byte or half-word transaction meets no check but is refused outright. -/
theorem subwordRefused : Obligations.SubwordRefused :=
  fun s t => congrArg Host.Outcome.next (refuse_eq .badAccess t s)

/-- Settles O58: the system's list changes at place `k` only. -/
theorem instancesAreIndependent : Obligations.InstancesAreIndependent := by
  intro sys sys' k h
  rcases stepInstance_eq_next h with ⟨hk, rfl⟩ | ⟨s, t, hk, ht, rfl⟩
  · exact ⟨rfl, fun _ _ => rfl, fun s hs => by simp [hk] at hs⟩
  · have hlt : k < sys.length := (List.getElem?_eq_some_iff.1 hk).1
    refine ⟨List.length_set, fun j hj => List.getElem?_set_ne hj.symm, fun s' hs' => ⟨t, ?_, List.getElem?_set_self hlt⟩⟩
    rwa [← Option.some.inj (hk.symm.trans hs')]

end Sys2Proof.Machine
end

section
/-!
Reads of the port and the three memory windows (spec/20_memory.md R46 to R49).
-/

namespace Sys2Proof.Machine

open Sys2Proof.Safety

/-! ### Reads -/

theorem State.answer_inj {s : State} {v w : Word} (h : s.answer v = s.answer w) : v = w :=
  (List.cons.inj (congrArg State.returned h)).1

/-- A refused read that leaves nothing but its answer found ERR set and answers 0, so it does so again. -/
theorem refuse_read_answer {c : ErrCode} {addr : Addr} {s : State} {w : Word} (h : refuse c (.read addr) s = s.answer w) (v : Word) :
    refuse c (.read addr) (s.answer v) = (s.answer v).answer w := by
  have herr : s.err = true := by
    rw [refuse_eq] at h
    exact (congrArg State.err h).symm
  have hv : (s.answer v).err = true := herr
  rw [refuse, raiseError_of_err herr] at h
  rw [refuse, raiseError_of_err hv, State.answer_inj h]

/-- What a read answers does not depend on what earlier reads returned. -/
theorem readPlace_answer {p : Place} {addr : Addr} {s : State} {w : Word} (h : readPlace p (.read addr) s = s.answer w) (v : Word) :
    readPlace p (.read addr) (s.answer v) = (s.answer v).answer w := by
  cases p with
  | cmd | reserved => exact refuse_read_answer h v
  | chipw | unpk =>
    rw [readPlace] at h
    split at h
    case isTrue hg => exact (if_pos hg).trans (congrArg (s.answer v).answer (State.answer_inj h))
    case isFalse hg => exact (if_neg hg).trans (refuse_read_answer h v)
  | _ => exact congrArg (s.answer v).answer (State.answer_inj h)

/-- A read at an aligned address reads the place that stands there. -/
theorem transact_read_aligned {addr : Addr} {a : Nat} (haddr : addr.toNat = a) (ha : a % 4 = 0) (s : State) :
    transact (.read addr) s = .next (readPlace (placeAt a) (.read addr) s) := by
  subst haddr
  rw [transact, if_pos ((aligned_iff addr).2 ha)]

/-- Settles O18: the read answers, and the answer does not depend on the words returned before. -/
theorem readHasNoSideEffect : Obligations.ReadHasNoSideEffect := by
  intro s addr h
  obtain ⟨w, hw⟩ := readPlace_accepted h
  have ha := ((unreadable_eq_false_iff _).1 (refusalOf_read_eq_none h).1).1
  refine ⟨w, ?_, ?_⟩ <;> rw [transact_read_aligned rfl ha]
  · rw [hw]; rfl
  · exact congrArg Host.Outcome.next (readPlace_answer hw w)

/-! ### The CHIPW window -/

/-- A word assembled flag by flag: bit i is flag i for the positions listed, and 0 elsewhere. -/
theorem getLsbD_foldr_flagBit (f : Nat → Bool) {l : List Nat} (hl : ∀ b ∈ l, b < 32) (i : Nat) :
    (l.foldr (fun b w => w ||| flagBit (f b) b) (0 : Word)).getLsbD i = (decide (i ∈ l) && f i) := by
  induction l with
  | nil => simp
  | cons b l ih =>
    rw [List.foldr_cons, BitVec.getLsbD_or, ih fun c hc => hl c (List.mem_cons_of_mem b hc),
      getLsbD_flagBit (hl b List.mem_cons_self)]
    by_cases hi : i = b
    · subst hi; cases f i <;> simp
    · simp [hi]

theorem chipWord_getLsbD (s : State) (k : Nat) {b : Nat} (hb : b < 32) : (chipWord s k).getLsbD b = s.chipAt (32 * k + b) := by
  rw [chipWord, getLsbD_foldr_flagBit (fun b => s.chipAt (32 * k + b)) fun _ => List.mem_range.1]
  simp [hb]

/-- Settles O23: the window's word is CHIPW[k], assembled chip by chip. -/
theorem chipWindowReads : Obligations.ChipWindowReads := by
  intro s k hc hk
  refine ⟨chipWord s k, ?_, fun b hb => chipWord_getLsbD s k hb⟩
  rw [transact_read_aligned (chipw_addr hk) (by omega), placeAt_chipw hk, readPlace, if_pos hc]

/-! ### The UNPK window -/

/-- Settles O24: sign extension keeps the element. -/
theorem unpkWindowReads : Obligations.UnpkWindowReads := by
  intro s i hu hi
  refine ⟨unpkWord s i, ?_, BitVec.toInt_signExtend_of_le (by decide)⟩
  rw [transact_read_aligned (unpk_addr hi) (by omega), placeAt_unpk hi, readPlace, if_pos hu]

/-! ### The SIG window -/

/-- A register of n bits holds what was written to it as the balanced remainder modulo 2^n. -/
theorem narrow_eq_bmod {n : Nat} (hn : 0 < n) (x : Int) : narrow n x = x.bmod (2 ^ n) := by
  obtain ⟨m, rfl⟩ : ∃ m, n = m + 1 := ⟨n - 1, by omega⟩
  have hc : ((2 ^ m : Nat) : Int) = 2 ^ m := Nat.cast_pow 2 m
  have hpos : (0 : Int) < 2 ^ m := by positivity
  have h0 := Int.emod_nonneg x (show (2 * 2 ^ m : Int) ≠ 0 by omega)
  rw [narrow, sext, Int.bmod_def, Nat.cast_pow, Nat.cast_ofNat, pow_succ', Nat.add_sub_cancel]
  split_ifs <;> omega

/-- The sample a word stores is the signed value of its low n bits. -/
theorem narrow_word {n : Nat} (hn : 0 < n) (v : Word) : narrow n v.toNat = (v.setWidth n).toInt := by
  rw [narrow_eq_bmod hn, BitVec.toInt_setWidth]

/-- A word whose signed value fits n bits stores that value. -/
theorem narrow_word_of_fits {n : Nat} (hn : 0 < n) (hle : n ≤ 32) {v : Word} (h : Fits n v.toInt) : narrow n v.toNat = v.toInt := by
  calc narrow n v.toNat = narrow n v.toInt := by
        rw [narrow_eq_bmod hn, narrow_eq_bmod hn, BitVec.toInt_eq_toNat_bmod, Int.bmod_bmod_of_dvd (pow_dvd_pow 2 hle)]
    _ = v.toInt := narrow_of_fits hn h

/-- A word shows an integer of at most 32 bits exactly. -/
theorem pattern32_toInt {n : Nat} (hn : n ≤ 32) {x : Int} (h : Fits n x) : (pattern32 x).toInt = x := by
  have hpow : (2 : Int) ^ (n - 1) ≤ 2 ^ 31 := pow_le_pow_right₀ (by norm_num) (by omega)
  obtain ⟨hlo, hhi⟩ := h
  exact BitVec.toInt_ofInt_eq_self (by decide) (by omega) (by omega)

theorem State.writeSig_sigAt (s : State) (i : Nat) (v : Word) (j : Nat) :
    (s.writeSig i v).sigAt j = if i = j then narrow s.width v.toNat else s.sigAt j := by
  rw [State.sigAt, State.writeSig_sigMem, Mem.find_store]
  split <;> rfl

/-- A write to the SIG window is accepted in every state (R46). -/
theorem transact_write_sig {i : Nat} (hi : i < 1023) (v : Word) (s : State) :
    transact (.write (BitVec.ofNat 14 (0x1000 + 4 * i)) v) s = .next (flagsAfterSigWrite (s.writeSig i v)) := by
  rw [transact, if_pos ((aligned_iff _).2 (by rw [sig_addr hi]; omega)), sig_addr hi, placeAt_sig hi, writePlace]

/-- Settles O25: the write narrows the word to W bits and clears DONE, and a sample of W bits is shown exactly. -/
theorem sigWindow : Obligations.SigWindow := by
  intro s i v hi
  have hpos : 0 < s.width := Nat.succ_pos _
  have hle : s.width ≤ 32 := (width_le s).trans (by decide)
  have hat : ∀ j, (flagsAfterSigWrite (s.writeSig i v)).sigAt j = if i = j then narrow s.width v.toNat else s.sigAt j :=
    State.writeSig_sigAt s i v
  refine ⟨⟨_, transact_write_sig hi v s, rfl, ?_, fun hv => ?_, fun j hj => ?_⟩, sigWord s i, ?_, fun hf => ?_⟩
  · rw [hat, if_pos rfl, narrow_word hpos]
  · rw [hat, if_pos rfl, narrow_word_of_fits hpos hle hv]
  · rw [hat, if_neg hj.symm]
  · rw [transact_read_aligned (sig_addr hi) (by omega), placeAt_sig hi, readPlace]
  · exact pattern32_toInt hle (hf i)

end Sys2Proof.Machine
end

section
/-!
The opcode map (spec/30_encoding.md R70 to R72): a word is its five fields, a word decodes exactly when it is the word of a well-formed
command, and a mask acts on each field by itself.
-/

namespace Sys2Proof

/-! ### A word as its fields -/

/-- The fields Z1, OP, A, B and Z0 of R70 make up the word. -/
theorem word_eq_fields (w : Word) :
    w = BitVec.ofNat 32 (bitField w 31 16 * 2 ^ 16 + bitField w 15 12 * 2 ^ 12 + bitField w 11 8 * 2 ^ 8 + bitField w 7 4 * 2 ^ 4 +
      bitField w 3 0) := by
  refine BitVec.eq_of_toNat_eq ?_
  have hw := w.isLt
  simp only [bitField_eq, BitVec.toNat_ofNat]
  omega

/-- Words that agree in the five fields are equal. -/
theorem word_eq_iff_fields (v w : Word) :
    v = w ↔ bitField v 31 16 = bitField w 31 16 ∧ bitField v 15 12 = bitField w 15 12 ∧ bitField v 11 8 = bitField w 11 8 ∧
      bitField v 7 4 = bitField w 7 4 ∧ bitField v 3 0 = bitField w 3 0 := by
  refine ⟨by rintro rfl; exact ⟨rfl, rfl, rfl, rfl, rfl⟩, fun ⟨hz1, hop, ha, hb, hz0⟩ => ?_⟩
  rw [word_eq_fields v, hz1, hop, ha, hb, hz0, ← word_eq_fields w]

theorem bitField_eq_extractLsb' (w : Word) (hi lo : Nat) : bitField w hi lo = (w.extractLsb' lo (hi + 1 - lo)).toNat := by
  rw [bitField_eq, BitVec.extractLsb'_toNat, Nat.shiftRight_eq_div_pow]

/-- A mask acts on each field by itself. -/
theorem bitField_and (v w : Word) (hi lo : Nat) : bitField (v &&& w) hi lo = bitField v hi lo &&& bitField w hi lo := by
  simp only [bitField_eq_extractLsb', BitVec.extractLsb'_and, BitVec.toNat_and]

/-- A field the mask fixes is kept. -/
theorem bitField_and_of_ones (w m : Word) (hi lo : Nat) (hm : bitField m hi lo = 2 ^ (hi + 1 - lo) - 1) :
    bitField (w &&& m) hi lo = bitField w hi lo := by
  rw [bitField_and, hm, Nat.and_two_pow_sub_one_eq_mod, bitField_eq, Nat.mod_mod]

/-- A field the mask leaves free is dropped. -/
theorem bitField_and_of_zeros (w m : Word) (hi lo : Nat) (hm : bitField m hi lo = 0) : bitField (w &&& m) hi lo = 0 := by
  rw [bitField_and, hm, Nat.and_zero]

/-! ### Decoding and encoding -/

/-- GEN's operands fit their fields (R71). -/
theorem wellFormed_gen_iff (t1 t2 : Nat) : (Instr.gen t1 t2).WellFormed ↔ t1 ≤ 15 ∧ t2 ≤ 15 := by
  simp [Instr.WellFormed, Instr.wellFormed]

/-- The word of GEN shows its operands in A and B, and nothing else but OP = 1. -/
theorem bitField_encode_gen {t1 t2 : Nat} (h1 : t1 ≤ 15) (h2 : t2 ≤ 15) :
    bitField (encode (.gen t1 t2)) 31 16 = 0 ∧ bitField (encode (.gen t1 t2)) 15 12 = 1 ∧ bitField (encode (.gen t1 t2)) 11 8 = t1 ∧
      bitField (encode (.gen t1 t2)) 7 4 = t2 ∧ bitField (encode (.gen t1 t2)) 3 0 = 0 := by
  simp only [bitField_eq, encode, BitVec.toNat_ofNat]
  omega

/-- A word with Z1 = Z0 = 0 and OP = 1 is a GEN with the operands A and B. -/
theorem decode_of_gen_fields {w : Word} (hz1 : bitField w 31 16 = 0) (hop : bitField w 15 12 = 1) (hz0 : bitField w 3 0 = 0) :
    decode w = .ok (.gen (bitField w 11 8) (bitField w 7 4)) := by
  simp [decode, hz1, hop, hz0]

/-- Settles O1: GEN by its fields, each other command by its one word. -/
theorem commandEncodingRoundTrip : Obligations.CommandEncodingRoundTrip := by
  intro i hi
  cases i with
  | gen t1 t2 =>
    obtain ⟨h1, h2⟩ := (wellFormed_gen_iff t1 t2).1 hi
    obtain ⟨hz1, hop, ha, hb, hz0⟩ := bitField_encode_gen h1 h2
    rw [decode_of_gen_fields hz1 hop hz0, ha, hb]
  | nop | unpack | search | corr | clrerr | srst => rfl

theorem gen_fields_wellFormed (w : Word) : (Instr.gen (bitField w 11 8) (bitField w 7 4)).WellFormed := by
  rw [wellFormed_gen_iff, bitField_eq, bitField_eq]
  omega

/-- Settles O2: the decoder fixes every field of the word, and the fields make up the word. -/
theorem decodedWordReencodes : Obligations.DecodedWordReencodes := by
  intro w i h
  obtain ⟨hz1, hz0, ⟨rfl, hop⟩ | ⟨ha, hb, hplain⟩⟩ := decode_ok h
  · refine ⟨gen_fields_wellFormed w, ?_⟩
    conv_rhs => rw [word_eq_fields w, hz1, hop, hz0]
    simp [encode]
  · rw [word_eq_fields w, hz1, ha, hb, hz0]
    rcases hplain with ⟨rfl, hop⟩ | ⟨rfl, hop⟩ | ⟨rfl, hop⟩ | ⟨rfl, hop⟩ | ⟨rfl, hop⟩ | ⟨rfl, hop⟩ <;>
      exact ⟨rfl, by rw [hop]; rfl⟩

/-- The words that decode are the words of the well-formed commands. -/
theorem decode_eq_ok_iff (w : Word) (i : Instr) : decode w = .ok i ↔ i.WellFormed ∧ encode i = w :=
  ⟨decodedWordReencodes w i, by rintro ⟨hi, rfl⟩; exact commandEncodingRoundTrip i hi⟩

/-! ### Mask and match -/

/-- Under the full mask of a command without operands a word matches that command's word alone. -/
theorem decode_plain_iff {i : Instr} (hi : i.WellFormed) (w : Word) : decode w = .ok i ↔ w &&& 0xFFFFFFFF = encode i := by
  rw [decode_eq_ok_iff, show w &&& 0xFFFFFFFF = w from BitVec.and_allOnes]
  exact ⟨fun ⟨_, h⟩ => h.symm, fun h => ⟨hi, h.symm⟩⟩

/-- GEN's mask fixes Z1, OP and Z0 and leaves A and B free. -/
theorem and_genMask_iff (w : Word) :
    w &&& 0xFFFFF00F = 0x00001000 ↔ bitField w 31 16 = 0 ∧ bitField w 15 12 = 1 ∧ bitField w 3 0 = 0 := by
  rw [word_eq_iff_fields, bitField_and_of_ones w _ 31 16 rfl, bitField_and_of_ones w _ 15 12 rfl, bitField_and_of_zeros w _ 11 8 rfl,
    bitField_and_of_zeros w _ 7 4 rfl, bitField_and_of_ones w _ 3 0 rfl]
  exact ⟨fun ⟨hz1, hop, _, _, hz0⟩ => ⟨hz1, hop, hz0⟩, fun ⟨hz1, hop, hz0⟩ => ⟨hz1, hop, rfl, rfl, hz0⟩⟩

/-- A word that decodes to a GEN has Z1 = Z0 = 0 and OP = 1, and A and B are the operands. -/
theorem gen_fields_of_decode {w : Word} {t1 t2 : Nat} (h : decode w = .ok (.gen t1 t2)) :
    (bitField w 31 16 = 0 ∧ bitField w 15 12 = 1 ∧ bitField w 3 0 = 0) ∧ t1 = bitField w 11 8 ∧ t2 = bitField w 7 4 := by
  obtain ⟨hz1, hz0, ⟨hgen, hop⟩ | ⟨-, -, hplain⟩⟩ := decode_ok h
  · obtain ⟨ht1, ht2⟩ := Instr.gen.inj hgen
    exact ⟨⟨hz1, hop, hz0⟩, ht1, ht2⟩
  · simp at hplain

/-- Settles O3: a command without operands by its word, GEN by the fields its mask fixes. -/
theorem decodeFollowsOpcodeMap : Obligations.DecodeFollowsOpcodeMap := by
  intro w
  refine ⟨decode_plain_iff rfl w, ?_, decode_plain_iff rfl w, decode_plain_iff rfl w, decode_plain_iff rfl w, decode_plain_iff rfl w,
    decode_plain_iff rfl w, fun t1 t2 h => ?_⟩
  · rw [and_genMask_iff]
    exact ⟨fun ⟨_, _, h⟩ => (gen_fields_of_decode h).1, fun ⟨hz1, hop, hz0⟩ => ⟨_, _, decode_of_gen_fields hz1 hop hz0⟩⟩
  · rw [← bitField_eq_extractLsb' w 11 8, ← bitField_eq_extractLsb' w 7 4]
    exact (gen_fields_of_decode h).2

/-- Settles O4: each word is the encoding of its command. -/
theorem sampleWordsDecode : Obligations.SampleWordsDecode :=
  ⟨commandEncodingRoundTrip .nop rfl, commandEncodingRoundTrip (.gen 2 6) rfl, commandEncodingRoundTrip (.gen 10 10) rfl,
    commandEncodingRoundTrip .unpack rfl, commandEncodingRoundTrip .search rfl, commandEncodingRoundTrip .corr rfl,
    commandEncodingRoundTrip .clrerr rfl, commandEncodingRoundTrip .srst rfl⟩

end Sys2Proof
end

section
/-!
Runs of script lines (spec/30_encoding.md R75, R76): a run takes its actions one by one, and RDSIG after LDSIG returns the sample.
-/

namespace Sys2Proof.Machine

open Sys2Proof.Safety

theorem coreRun_succ_of_next {M : Host.Core} {s t : M.State} (h : M.step s = .next t) (k : Nat) : M.run (k + 1) s = M.run k t := by
  rw [Host.Core.run, h]

/-- A run whose first action completes goes on with the others from the state reached. -/
theorem run_cons {a : HostAction} {rest : List HostAction} {s t : State} (h : hostAct a (s.setScript rest) = .next t)
    (ht : t.script = rest) : run (a :: rest) s = run rest t := by
  subst ht
  exact coreRun_succ_of_next (M := core) (s := s.setScript (a :: t.script)) h t.script.length

/-- `LDSIG i, x` leaves x in SIG[i] when x has W bits (R46, R76). -/
theorem writeSig_pattern32_sigAt (s : State) (i : Nat) {x : Int} (hx : Fits s.width x) : (s.writeSig i (pattern32 x)).sigAt i = x := by
  have hle : s.width ≤ 32 := (width_le s).trans (by decide)
  have hword : (pattern32 x).toInt = x := pattern32_toInt hle hx
  rw [State.writeSig_sigAt, if_pos rfl, narrow_word_of_fits (Nat.succ_pos _) hle (by rwa [hword]), hword]

/-- A read of the SIG window answers with the sample (R46). -/
theorem transact_read_sig {i : Nat} (hi : i < 1023) (s : State) :
    transact (.read (BitVec.ofNat 14 (0x1000 + 4 * i))) s = .next (s.answer (pattern32 (s.sigAt i))) := by
  rw [transact_read_aligned (sig_addr hi) (by omega), placeAt_sig hi, readPlace, sigWord]

/-- A run that begins with `LDSIG i, x`. -/
theorem run_ldsig {i : Nat} (hi : i < 1023) (x : Int) (rest : List HostAction) (s : State) :
    run (ldsig i x :: rest) s = run rest (flagsAfterSigWrite ((s.setScript rest).writeSig i (pattern32 x))) :=
  run_cons (transact_write_sig hi _ _) rfl

/-- A run that begins with `RDSIG i`. -/
theorem run_rdsig {i : Nat} (hi : i < 1023) (rest : List HostAction) (s : State) :
    run (rdsig i :: rest) s = run rest ((s.setScript rest).answer (pattern32 (s.sigAt i))) :=
  run_cons (transact_read_sig hi _) rfl

/-- Settles O26: the write leaves the sample in SIG[i], and the read shows it in 32 bits. -/
theorem ldsigThenRdsigReturnsSample : Obligations.LdsigThenRdsigReturnsSample := by
  intro s i x hi hx
  rw [run_ldsig hi, run_rdsig hi]
  exact ⟨_, rfl, congrArg (pattern32 · :: s.returned) (writeSig_pattern32_sigAt (s.setScript [rdsig i]) i hx)⟩

end Sys2Proof.Machine
end

section
/-!
What an accepted GEN leaves (spec/40_generator.md R90 to R99): the Gold sequence of its taps from every state, whatever their order, in
one pass or step by step.
-/

namespace Sys2Proof.Machine

open Sys2Proof.Safety

/-! ### An accepted GEN -/

/-- With both taps in 1..10 GEN is accepted in every state (R100). -/
theorem exec_gen {t1 t2 : Nat} (h1 : 1 ≤ t1) (h1' : t1 ≤ 10) (h2 : 1 ≤ t2) (h2' : t2 ≤ 10) (s : State) :
    exec (.gen t1 t2) s = .next (generate t1 t2 s) :=
  exec_accepted (i := .gen t1 t2) (if_pos ⟨h1, h1', h2, h2'⟩)

/-- A legal tap survives its register. -/
theorem tap_toNat {t : Nat} (ht : t ≤ 10) : (BitVec.ofNat 4 t).toNat = t := by
  rw [BitVec.toNat_ofNat]
  omega

/-- The chips without the pad bit. -/
theorem generate_chipAt_of_lt {t1 t2 : Nat} (h1 : t1 ≤ 10) (h2 : t2 ≤ 10) (s : State) {k : Nat} (hk : k < 1023) :
    (generate t1 t2 s).chipAt k = goldBit t1 t2 k := by
  rw [generate_chipAt h1 h2, if_pos hk]

/-- CHIPMEM of an accepted GEN, as data: one pass of packed bits and the pad bit over the old content. -/
theorem generate_chipMem {t1 t2 : Nat} (h1 : t1 ≤ 10) (h2 : t2 ≤ 10) (s : State) :
    (generate t1 t2 s).chipMem =
      Mem.fill s.chipMem 0 (packedBits t1 t2 Config.chips Config.lfsrPreset Config.lfsrPreset ++ [false]) := by
  simp [generate, flagsAfterGen, genRun, genStart, tap_toNat h1, tap_toNat h2]

/-- Settles O30: the chips of `generate_chipAt`, and the frame register by register. -/
theorem genWritesGoldSequence : Obligations.GenWritesGoldSequence := by
  intro s t1 t2 h1 h1' h2 h2'
  refine ⟨_, exec_gen h1 h1' h2 h2' s, fun k hk => generate_chipAt_of_lt h1' h2' s hk, generate_chipAt h1' h2' s 1023,
    fun k hk => ?_, ?_⟩
  · rw [generate_chipAt h1' h2', if_neg (by omega), if_neg (by omega)]
  · apply State.ext <;> simp

/-- Settles O33: neither the chips nor the registers that GEN leaves speak of the state before it. -/
theorem genDependsOnTapsOnly : Obligations.GenDependsOnTapsOnly := by
  intro s s' t1 t2 h1 h1' h2 h2'
  refine ⟨_, _, exec_gen h1 h1' h2 h2' s, exec_gen h1 h1' h2 h2' s', fun k hk => ?_, by simp⟩
  rcases Nat.lt_succ_iff_lt_or_eq.1 hk with hlt | rfl
  · rw [generate_chipAt_of_lt h1' h2' s hlt, generate_chipAt_of_lt h1' h2' s' hlt]
  · exact (generate_chipAt h1' h2' s 1023).trans (generate_chipAt h1' h2' s' 1023).symm

/-! ### The order of the taps -/

theorem packedBit_comm (g1 g2 : BitVec 10) (t1 t2 : Nat) : packedBit g1 g2 t1 t2 = packedBit g1 g2 t2 t1 := by
  rw [packedBit, packedBit, outputBit, outputBit, Bool.xor_right_comm]

theorem packedBits_comm (t1 t2 n : Nat) (g1 g2 : BitVec 10) : packedBits t1 t2 n g1 g2 = packedBits t2 t1 n g1 g2 := by
  induction n generalizing g1 g2 with
  | zero => rfl
  | succ n ih => rw [packedBits, packedBits, packedBit_comm, ih]

/-- With equal taps G2 cancels out (R102). -/
theorem packedBit_same_tap (g1 g2 : BitVec 10) (t : Nat) : packedBit g1 g2 t t = !g1.getLsbD 9 := by
  rw [packedBit, outputBit, Bool.xor_assoc, Bool.xor_self, Bool.xor_false]

/-- Settles O34: each packed bit is symmetric in the taps, and with equal taps it is G1's top bit inverted. -/
theorem tapOrderAndEqualTaps : Obligations.TapOrderAndEqualTaps := by
  refine ⟨fun s t1 t2 h1 h1' h2 h2' => ⟨_, _, exec_gen h1 h1' h2 h2' s, exec_gen h2 h2' h1 h1' s, ?_⟩,
    fun s t h h' => ⟨_, exec_gen h h' h h' s, fun k hk => ?_⟩⟩
  · rw [generate_chipMem h1' h2', generate_chipMem h2' h1', packedBits_comm]
  · rw [generate_chipAt_of_lt h' h' s hk, goldBit, packedBit_same_tap]

/-! ### Step by step -/

/-- A fill with nothing changes nothing. -/
theorem Mem.fill_nil {α : Type} {b : Nat} {m : Mem α} (h : Mem.wf b m = true) : Mem.fill m 0 [] = m :=
  Mem.ext_of_find (Mem.wf_fill [] h (Nat.zero_le b)) h fun i => by rw [Mem.find_fill, if_neg (by simp)]

/-- A write right after a filled range makes the range one element longer. -/
theorem Mem.store_fill {α : Type} {b : Nat} {m : Mem α} (h : Mem.wf b m = true) {vals : List α} (hb : vals.length < b) (v : α) :
    Mem.store (Mem.fill m 0 vals) vals.length v = Mem.fill m 0 (vals ++ [v]) := by
  refine Mem.ext_of_find (Mem.wf_store v (Mem.wf_fill vals h (by omega)) hb) (Mem.wf_fill _ h ?_) fun i => ?_
  · rw [List.length_append, List.length_singleton]
    omega
  rw [Mem.find_store, Mem.find_fill, Mem.find_fill]
  rcases Nat.lt_trichotomy i vals.length with hlt | rfl | hgt
  · have hlt' : i < vals.length + 1 := Nat.lt_succ_of_lt hlt
    simp [hlt, hlt', hlt.ne']
  · simp
  · have hge : ¬i < vals.length := by omega
    have hge' : ¬i < vals.length + 1 := by omega
    simp [hge, hge', hgt.ne]

/-- The bit of one more step comes last. -/
theorem packedBits_succ (t1 t2 n : Nat) (g1 g2 : BitVec 10) :
    packedBits t1 t2 (n + 1) g1 g2 = packedBits t1 t2 n g1 g2 ++ [packedBit (stepsOf next1 n g1) (stepsOf next2 n g2) t1 t2] := by
  induction n generalizing g1 g2 with
  | zero => rfl
  | succ n ih => rw [packedBits, ih]; rfl

/-- One more generator step, taken last. -/
theorem genSteps_succ (n : Nat) (s : State) : genSteps (n + 1) s = genStep (genSteps n s) := by
  induction n generalizing s with
  | zero => rfl
  | succ n ih => exact ih (genStep s)

/-- The chip written right after a pass joins the pass. -/
theorem State.fillChips_writeChip {s : State} (hm : Mem.wf 1024 s.chipMem = true) {bits : List Bool} {n : Nat} (hlen : bits.length = n)
    (hn : n ≤ 1023) (p : Bool) : (s.fillChips bits).writeChip n p = s.fillChips (bits ++ [p]) := by
  subst hlen
  exact congrArg (fun m => { s with chipMem := m }) (Mem.store_fill hm (Nat.lt_succ_of_le hn) p)

/-- A pass of n steps goes on with a generator step as a pass of n + 1 steps. -/
theorem genStep_fillChips {s : State} (hm : Mem.wf 1024 s.chipMem = true) {n : Nat} (hn : n < 1023) {bits : List Bool}
    (hlen : bits.length = n) (a b : BitVec 10) :
    genStep ((s.fillChips bits).setGen a b (BitVec.ofNat 10 n)) =
      (s.fillChips (bits ++ [packedBit a b s.t1.toNat s.t2.toNat])).setGen (next1 a) (next2 b) (BitVec.ofNat 10 (n + 1)) := by
  have hcnt : (BitVec.ofNat 10 n).toNat = n := by rw [BitVec.toNat_ofNat]; omega
  rw [← State.fillChips_writeChip hm hlen hn.le, BitVec.ofNat_add, genStep, State.setGen_chipcnt, hcnt]
  rfl

/-- After n steps from CHIPCNT = 0 the chips 0 to n - 1 are written, both registers have moved n steps, and CHIPCNT is n. -/
theorem genSteps_eq {s : State} (hm : Mem.wf 1024 s.chipMem = true) (hc : s.chipcnt = 0) {n : Nat} (hn : n ≤ 1023) :
    genSteps n s =
      (s.fillChips (packedBits s.t1.toNat s.t2.toNat n s.g1 s.g2)).setGen (stepsOf next1 n s.g1) (stepsOf next2 n s.g2)
        (BitVec.ofNat 10 n) := by
  induction n with
  | zero =>
    have hfill : s.fillChips [] = s := congrArg (fun m => { s with chipMem := m }) (Mem.fill_nil hm)
    rw [packedBits, hfill]
    exact congrArg (s.setGen s.g1 s.g2) hc
  | succ n ih =>
    rw [genSteps_succ, ih (by omega), genStep_fillChips hm (by omega) (length_packedBits ..), packedBits_succ, stepsOf_succ,
      stepsOf_succ]

/-- The one-pass run is the steps and then the pad bit (R97, R98). -/
theorem genRun_eq_genSteps {s : State} (hm : Mem.wf 1024 s.chipMem = true) (hc : s.chipcnt = 0) {n : Nat} (hn : n ≤ 1023) :
    genRun n s = (genSteps n s).writeChip n false := by
  rw [genSteps_eq hm hc hn, genRun, hc, zero_add, ← State.fillChips_writeChip hm (length_packedBits ..) hn]
  rfl

/-- Settles O31: an accepted GEN begins with CHIPCNT = 0, so its one pass is its 1023 steps and the pad bit. -/
theorem genOnePassIsStepwise : Obligations.GenOnePassIsStepwise := by
  intro s t1 t2 hm h1 h1' h2 h2'
  rw [exec_gen h1 h1' h2 h2', generate, generateStepwise, genRun_eq_genSteps (s := genStart t1 t2 s) hm.1 rfl (Nat.le_refl _)]

end Sys2Proof.Machine
end

section
/-!
The period of the two shift registers (spec/40_generator.md R94 to R96, R101): 1023 = 3 * 11 * 31 steps lead from all ones back to all
ones, and none of the three proper divisors 341, 93, 33 does.
-/

namespace Sys2Proof.Machine

open Function

theorem stepsOf_eq_iterate (next : BitVec 10 → BitVec 10) (n : Nat) (g : BitVec 10) : stepsOf next n g = next^[n] g := by
  induction n generalizing g with
  | zero => rfl
  | succ n ih => exact ih (next g)

/-- A proper divisor of 1023 divides one of its three largest proper divisors. -/
theorem dvd_of_dvd_1023 {d : Nat} (h : d ∣ 1023) (hne : d ≠ 1023) : d ∣ 341 ∨ d ∣ 93 ∨ d ∣ 33 := by
  have hd : d ∈ Nat.divisors 1023 := Nat.mem_divisors.2 ⟨h, by decide⟩
  simp only [Nat.divisors_ofNat, Finset.mem_insert, Finset.mem_singleton] at hd
  revert hne
  rcases hd with rfl | rfl | rfl | rfl | rfl | rfl | rfl | rfl <;> decide

/-- A point that comes back after 1023 steps, but after none of its three largest proper divisors, has period 1023. -/
theorem minimalPeriod_eq_1023 {α : Type} {f : α → α} {x : α} (h : f^[1023] x = x) (h3 : f^[341] x ≠ x) (h11 : f^[93] x ≠ x)
    (h31 : f^[33] x ≠ x) : minimalPeriod f x = 1023 := by
  by_contra hne
  rcases dvd_of_dvd_1023 (IsPeriodicPt.minimalPeriod_dvd h) hne with hd | hd | hd
  · exact h3 (isPeriodicPt_iff_minimalPeriod_dvd.2 hd)
  · exact h11 (isPeriodicPt_iff_minimalPeriod_dvd.2 hd)
  · exact h31 (isPeriodicPt_iff_minimalPeriod_dvd.2 hd)

/-- Neither register is at all ones after a proper divisor of 1023 steps. -/
theorem stepsOf_divisors_ne_preset {next : BitVec 10 → BitVec 10} (hnext : next = next1 ∨ next = next2) :
    stepsOf next 341 0x3FF ≠ 0x3FF ∧ stepsOf next 93 0x3FF ≠ 0x3FF ∧ stepsOf next 33 0x3FF ≠ 0x3FF := by
  rcases hnext with rfl | rfl <;> decide +kernel

section
variable {next : BitVec 10 → BitVec 10} (hnext : next = next1 ∨ next = next2)
include hnext

theorem stepsOf_1023_preset : stepsOf next 1023 0x3FF = 0x3FF := by
  rcases hnext with rfl | rfl
  · exact stepsOf_chips_preset.1
  · exact stepsOf_chips_preset.2

theorem lfsr_minimalPeriod : minimalPeriod next 0x3FF = 1023 := by
  have hback := stepsOf_1023_preset hnext
  obtain ⟨h3, h11, h31⟩ := stepsOf_divisors_ne_preset hnext
  simp only [stepsOf_eq_iterate] at hback h3 h11 h31
  exact minimalPeriod_eq_1023 hback h3 h11 h31

/-- Within one period a register is never twice in the same state. -/
theorem stepsOf_inj_of_lt {m n : Nat} (hm : m < 1023) (hn : n < 1023) (h : stepsOf next m 0x3FF = stepsOf next n 0x3FF) : m = n := by
  rw [stepsOf_eq_iterate, stepsOf_eq_iterate] at h
  rw [← lfsr_minimalPeriod hnext] at hm hn
  exact (iterate_eq_iterate_iff_of_lt_minimalPeriod hm hn).1 h

/-- A register that was 0 would stay 0, and so never come back to all ones. -/
theorem stepsOf_ne_zero {n : Nat} (hn : n ≤ 1023) : stepsOf next n 0x3FF ≠ 0 := by
  intro h0
  have hzero : IsFixedPt next 0 := by rcases hnext with rfl | rfl <;> rfl
  have hback := stepsOf_1023_preset hnext
  rw [← Nat.add_sub_of_le hn, stepsOf_add, h0, stepsOf_eq_iterate, hzero.iterate] at hback
  exact absurd hback (by decide)

end

/-- A read of LFSR shows both registers (R30). -/
theorem transact_read_lfsr (s : State) : transact (.read 0x0018) s = .next (s.answer (lfsrWord s)) := rfl

/-- Settles O32: the period is 1023, and GEN takes one whole period of steps from all ones. -/
theorem lfsrPeriodIs1023 : Obligations.LfsrPeriodIs1023 := by
  refine ⟨fun next hnext => ⟨stepsOf_1023_preset hnext, fun n hpos hn h => ?_, fun n hn => stepsOf_ne_zero hnext hn.le,
    fun m n hm hn => stepsOf_inj_of_lt hnext hm hn⟩, fun s t1 t2 h1 h1' h2 h2' => ?_⟩
  · exact hpos.ne' (stepsOf_inj_of_lt hnext hn (by decide) h)
  · have hg1 : (generate t1 t2 s).g1 = 0x3FF := (generate_g1 t1 t2 s).trans stepsOf_chips_preset.1
    have hg2 : (generate t1 t2 s).g2 = 0x3FF := (generate_g2 t1 t2 s).trans stepsOf_chips_preset.2
    refine ⟨_, exec_gen h1 h1' h2 h2' s, hg1, hg2, ?_⟩
    rw [transact_read_lfsr, lfsrWord, hg1, hg2]
    rfl

end Sys2Proof.Machine
end

section
/-!
What an accepted UNPACK leaves (spec/41_unpacker.md R110 to R114): each element 1 - 2p of its packed bit p, from which the bit comes
back, and after a GEN each element 2x - 1 of the generator's XOR result x.
-/

namespace Sys2Proof.Machine

open Sys2Proof.Safety

/-- While CVALID = 1 UNPACK is accepted (R110). -/
theorem exec_unpack {s : State} (hc : s.cvalid = true) : exec .unpack s = .next (performed .unpack s) :=
  exec_accepted (i := .unpack) (if_pos hc)

/-- The whole UNPK memory after an accepted UNPACK: below 1023 the chip values, nothing else written (R111). -/
theorem performed_unpack_unpkAt {s : State} (h : MemWf s) (i : Nat) :
    (performed .unpack s).unpkAt i = if i < 1023 then chipValue (s.chipAt i) else s.unpkAt i :=
  unpackAll_unpkAt h i

/-- Each unpacked chip as an integer (R111). -/
theorem performed_unpack_unpkAt_toInt {s : State} (h : MemWf s) {i : Nat} (hi : i < 1023) :
    ((performed .unpack s).unpkAt i).toInt = 1 - 2 * ((s.chipAt i).toNat : Int) := by
  rw [performed_unpack_unpkAt h, if_pos hi, chipValue_toInt]

/-- Settles O35: the elements by `performed_unpack_unpkAt`; the frame is the definition's own, UNPK and two flags being all it writes. -/
theorem unpackExpandsChips : Obligations.UnpackExpandsChips := by
  intro s hm hc
  refine ⟨_, exec_unpack hc, fun i hi => performed_unpack_unpkAt_toInt hm hi, fun i hi => ?_, rfl⟩
  rw [performed_unpack_unpkAt hm, if_neg (by omega)]

/-- A chip value is +1 or -1, and -1 exactly for a packed 1 (R111, R113). -/
theorem chipValue_units_and_repack (p : Bool) :
    ((chipValue p).toInt = 1 ∨ (chipValue p).toInt = -1) ∧ decide ((chipValue p).toInt = -1) = p := by
  cases p <;> decide

/-- Settles O36: UNPACK keeps CHIPMEM, so re-packing an element gives the bit that was unpacked. -/
theorem unpackRoundTrip : Obligations.UnpackRoundTrip := by
  intro s hm hc
  refine ⟨_, exec_unpack hc, fun i hi => ?_⟩
  rw [performed_unpack_unpkAt hm, if_pos hi]
  exact chipValue_units_and_repack (s.chipAt i)

/-- The inversion of R93 and the mapping of R111 together: the chip of XOR result x is 2x - 1 (R114). -/
theorem one_sub_two_mul_not (x : Bool) : 1 - 2 * ((!x).toNat : Int) = 2 * (x.toNat : Int) - 1 := by
  cases x <;> decide

/-- Settles O37: GEN sets CVALID and keeps the memories canonical, so UNPACK expands its Gold sequence, each bit an inverted XOR result. -/
theorem unpackedChipIsXorResult : Obligations.UnpackedChipIsXorResult := by
  intro s t1 t2 hm h1 h1' h2 h2'
  refine ⟨_, _, exec_gen h1 h1' h2 h2' s, exec_unpack (generate_cvalid t1 t2 s), fun i hi => ?_⟩
  rw [performed_unpack_unpkAt_toInt (generate_memWf hm t1 t2) hi, generate_chipAt_of_lt h1' h2' s hi]
  exact one_sub_two_mul_not _

end Sys2Proof.Machine
end

section
/-!
The correlation sum (spec/42_correlator.md R121, R126): the one-pass sum is the formula, no set of its terms reaches the limits of ACC,
and a signal that holds the chips delayed has its peak at the delay.
-/

namespace Sys2Proof.Machine

open Sys2Proof.Safety

/-! ### The one pass is the formula -/

/-- The sum of products, pair by pair, as a sum over positions. -/
theorem dot_eq_sum (xs : List Int) (cs : List (BitVec 2)) :
    dot xs cs = ∑ i ∈ Finset.range xs.length, xs.getD i 0 * (cs.getD i 0).toInt := by
  induction xs generalizing cs with
  | nil => rfl
  | cons x xs ih =>
    rw [List.length_cons, Finset.sum_range_succ']
    cases cs with
    | nil => simp [dot]
    | cons c cs => simp [dot, ih, add_comm]

/-- Position i of the samples in the order of shift k holds SIG[(i + k) mod 1023] (R121, R132). -/
theorem rotated_sigValues_getD {s : State} (hm : MemWf s) {i k : Nat} (hi : i < 1023) (hk : k < 1023) :
    (rotated k s.sigValues).getD i 0 = s.sigAt ((i + k) % 1023) := by
  have hlen := State.length_sigValues s
  have hmod : (i + k) % 1023 < 1023 := Nat.mod_lt _ (by decide)
  rw [rotated, ← List.rotate_eq_drop_append_take (by omega), List.getD_eq_getElem?_getD, List.getElem?_rotate (by omega), hlen,
    State.sigValues_getElem? hm, if_pos hmod, Option.getD_some]

theorem unpkValues_getD {s : State} (hm : MemWf s) {i : Nat} (hi : i < 1023) : s.unpkValues.getD i 0 = s.unpkAt i := by
  rw [List.getD_eq_getElem?_getD, State.unpkValues_getElem? hm, if_pos hi, Option.getD_some]

/-- The sum the model computes is Sum(k) of R121. -/
theorem corrSum_eq_formulaSum {s : State} (hm : MemWf s) {k : Nat} (hk : k < 1023) : corrSum s k = formulaSum s k := by
  rw [corrSum, dot_eq_sum, length_rotated, State.length_sigValues, formulaSum]
  refine Finset.sum_congr rfl fun i hi => ?_
  have hi := Finset.mem_range.1 hi
  rw [rotated_sigValues_getD hm hi hk, unpkValues_getD hm hi]

/-- Settles O38: position by position, the rotated samples are those of the formula. -/
theorem corrSumIsFormula : Obligations.CorrSumIsFormula :=
  fun _ _ hm hk => corrSum_eq_formulaSum hm hk

/-! ### Bounds -/

/-- The term of chip i in Sum(k) (R121). -/
def corrTerm (s : State) (k i : Nat) : Int :=
  s.sigAt ((i + k) % 1023) * (s.unpkAt i).toInt

theorem formulaSum_eq_sum_corrTerm (s : State) (k : Nat) : formulaSum s k = ∑ i ∈ Finset.range 1023, corrTerm s k i := rfl

/-- A chip of +1 or -1 keeps the magnitude of the sample it multiplies. -/
theorem abs_corrTerm {s : State} (hu : ChipsAreUnits s) (k : Nat) {i : Nat} (hi : i < 1023) :
    |corrTerm s k i| = |s.sigAt ((i + k) % 1023)| := by
  have hc : |(s.unpkAt i).toInt| = 1 := by rcases hu i hi with h | h <;> rw [h] <;> rfl
  rw [corrTerm, abs_mul, hc, mul_one]

/-- No sum over a set of terms exceeds 1023 times the bound on the samples. -/
theorem abs_sum_corrTerm_le {s : State} {B : Int} (hB : ∀ j, j < 1023 → |s.sigAt j| ≤ B) (hu : ChipsAreUnits s) (k : Nat)
    {I : Finset Nat} (hI : I ⊆ Finset.range 1023) : |∑ i ∈ I, corrTerm s k i| ≤ 1023 * B := by
  have hB0 : 0 ≤ B := (abs_nonneg _).trans (hB 0 (by decide))
  have hcard : (I.card : Int) ≤ 1023 := by exact_mod_cast (Finset.card_le_card hI).trans_eq (Finset.card_range 1023)
  have hterm : ∀ i ∈ I, |corrTerm s k i| ≤ B := fun i hi => by
    rw [abs_corrTerm hu k (Finset.mem_range.1 (hI hi))]
    exact hB _ (Nat.mod_lt _ (by decide))
  calc |∑ i ∈ I, corrTerm s k i| ≤ ∑ i ∈ I, |corrTerm s k i| := Finset.abs_sum_le_sum_abs _ _
    _ ≤ I.card * B := by simpa using Finset.sum_le_card_nsmul I _ B hterm
    _ ≤ 1023 * B := mul_le_mul_of_nonneg_right hcard hB0

/-- ACC is ten bits wider than a sample, and 1023 is below 2^10 (R126). -/
theorem chips_mul_sample_lt_acc (s : State) : (1023 * 2 ^ (s.width - 1) : Int) < 2 ^ (s.width + 9) := by
  have hpow : (2 : Int) ^ (s.width + 9) = 2 ^ (s.width - 1) * 2 ^ 10 := by
    rw [← pow_add, State.width, Config.widthOf]
    congr 1
  have hpos : (0 : Int) < 2 ^ (s.width - 1) := by positivity
  omega

/-- ACC takes every integer of smaller magnitude than its most negative value. -/
theorem narrow_acc_of_abs_lt {s : State} {x : Int} (h : |x| < 2 ^ (s.width + 9)) : narrow (s.width + 10) x = x :=
  narrow_of_fits (by omega) ⟨(abs_lt.1 h).1.le, (abs_lt.1 h).2⟩

/-- Settles O40: every set of terms by `abs_sum_corrTerm_le`, and the sum itself as the set of all terms. -/
theorem accNeverOverflows : Obligations.AccNeverOverflows := by
  intro s k hf hu _
  have hle : ∀ I ⊆ Finset.range 1023, |∑ i ∈ I, corrTerm s k i| ≤ 1023 * 2 ^ (s.width - 1) := fun I hI =>
    abs_sum_corrTerm_le (fun j _ => abs_le.2 ⟨(hf j).1, (hf j).2.le⟩) hu k hI
  have hlt := chips_mul_sample_lt_acc s
  exact ⟨fun I hI => ⟨hle I hI, (hle I hI).trans_lt hlt⟩, narrow_acc_of_abs_lt ((hle _ subset_rfl).trans_lt hlt)⟩

/-! ### The peak of a delayed signal -/

section
variable {s : State} {d : Nat} (hu : ChipsAreUnits s)
  (hsig : ∀ j, j < 1023 → s.sigAt j = (s.unpkAt ((j + 1023 - d) % 1023)).toInt)
include hu hsig

/-- At the delay every chip meets itself. -/
theorem corrTerm_delayed_at_delay (hd : d < 1023) {i : Nat} (hi : i < 1023) : corrTerm s d i = 1 := by
  have hback : ((i + d) % 1023 + 1023 - d) % 1023 = i := by omega
  rw [corrTerm, hsig _ (Nat.mod_lt _ (by decide)), hback]
  rcases hu i hi with h | h <;> rw [h] <;> rfl

theorem formulaSum_delayed_at_delay (hd : d < 1023) : formulaSum s d = 1023 := by
  rw [formulaSum_eq_sum_corrTerm,
    Finset.sum_congr rfl fun i hi => corrTerm_delayed_at_delay hu hsig hd (Finset.mem_range.1 hi)]
  simp

/-- Samples that are chips have magnitude 1, so no sum exceeds 1023. -/
theorem formulaSum_delayed_le (k : Nat) : formulaSum s k ≤ 1023 := by
  have hB : ∀ j, j < 1023 → |s.sigAt j| ≤ 1 := fun j hj => by
    rw [hsig j hj]
    rcases hu _ (Nat.mod_lt (j + 1023 - d) (by decide)) with h | h <;> rw [h] <;> decide
  exact (le_abs_self _).trans (abs_sum_corrTerm_le hB hu k subset_rfl)

end

/-- Settles O39: at the delay every term is 1, and no term exceeds 1 at any shift. -/
theorem delayedChipsPeakAtDelay : Obligations.DelayedChipsPeakAtDelay := by
  intro s d hm hu hd hsig
  refine ⟨?_, fun k hk => ?_⟩
  · rw [corrSum_eq_formulaSum hm hd, formulaSum_delayed_at_delay hu hsig hd]
  · rw [corrSum_eq_formulaSum hm hk]
    exact formulaSum_delayed_le hu hsig k

end Sys2Proof.Machine
end

section
/-!
What an accepted SEARCH and CORR leave (spec/42_correlator.md R120 to R130, R135): the first shift that qualifies or the sentinel, and
nothing written but the result registers.
-/

namespace Sys2Proof.Machine

open Sys2Proof.Safety

/-- Settles O41: both forms are the magnitude test of `qualifies_iff`. -/
theorem thresholdIsStrict : Obligations.ThresholdIsStrict := by
  refine ⟨fun a => ⟨qualifies_iff a, ?_⟩, rfl⟩
  rw [qualifies_iff, Exceeds, lt_abs]
  omega

/-! ### The frame of a search -/

/-- While UVALID = 1 SEARCH is accepted (R120). -/
theorem exec_search {s : State} (hu : s.uvalid = true) : exec .search s = .next (search s) :=
  exec_accepted (i := .search) (if_pos hu)

/-- While CVALID = 1 CORR is accepted, and leaves what UNPACK and then SEARCH leave (R128). -/
theorem exec_corr {s : State} (hc : s.cvalid = true) : exec .corr s = .next (search (performed .unpack s)) := by
  rw [exec_accepted (i := .corr) (if_pos hc), performed_corr]

/-- A search writes the result registers and DONE, and nothing else (R120, R129). -/
theorem search_frame (s : State) :
    search s =
      { s with
        shift := (search s).shift, acc := (search s).acc, result := (search s).result, det := (search s).det
        neg := (search s).neg, done := true } := by
  apply State.ext <;> simp

/-- Settles O42: the frame of a search. -/
theorem searchWritesResultRegistersOnly : Obligations.SearchWritesResultRegistersOnly :=
  fun s hu => ⟨_, exec_search hu, search_frame s⟩

/-- Settles O46: an accepted UNPACK sets UVALID, so SEARCH is accepted after it. -/
theorem corrIsUnpackThenSearch : Obligations.CorrIsUnpackThenSearch :=
  fun _ hc => ⟨_, _, exec_unpack hc, exec_search rfl, exec_corr hc⟩

/-- Settles O47: UNPK is what UNPACK leaves, and the search after it writes the result registers only. -/
theorem corrFrame : Obligations.CorrFrame := by
  intro s hm hc
  refine ⟨_, exec_corr hc, fun i hi => ?_, fun i hi => ?_, ?_⟩
  · rw [search_unpkAt, performed_unpack_unpkAt_toInt hm hi]
  · rw [search_unpkAt, performed_unpack_unpkAt hm, if_neg (by omega)]
  · rw [search_unpkMem]
    exact search_frame (performed .unpack s)

/-! ### The range of the result -/

/-- An accepted SEARCH or CORR ends with a search. -/
theorem exec_search_or_corr {s : State} {i : Instr} (h : (i = .search ∧ s.uvalid = true) ∨ (i = .corr ∧ s.cvalid = true)) :
    ∃ u, exec i s = .next (search u) := by
  rcases h with ⟨rfl, hu⟩ | ⟨rfl, hc⟩
  · exact ⟨_, exec_search hu⟩
  · exact ⟨_, exec_corr hc⟩

/-- Settles O45: without a detection the result is the sentinel, with one NEG is its sign. -/
theorem resultRange : Obligations.ResultRange := by
  intro s i h
  obtain ⟨u, hex⟩ := exec_search_or_corr h
  have hr := search_result u
  refine ⟨_, hex, hr.resultInRange, ?_⟩
  have hshift := hr.shiftInRange
  cases hdet : (search u).det with
  | false =>
    obtain ⟨hres, -, -⟩ := hr.notDetected hdet
    exact ⟨fun _ => by omega, fun _ _ => by omega, fun _ => rfl⟩
  | true =>
    obtain ⟨-, -, -, hres⟩ := hr.detected hdet
    cases hneg : (search u).neg <;> simp only [hneg, if_true, Bool.false_eq_true, if_false] at hres
    · exact ⟨fun _ => by omega, fun _ _ => rfl, fun _ => by omega⟩
    · exact ⟨fun _ => rfl, fun _ _ => by omega, fun _ => by omega⟩

/-! ### Which shift a search reports -/

/-- A search stops at the first shift that qualifies, and reports it (R123, R124). -/
theorem search_of_first {s : State} {k : Nat} (hk : k < 1023) (hq : qualifies (accAt s k) = true)
    (hfirst : ∀ i, i < k → qualifies (accAt s i) = false) :
    (search s).shift = BitVec.ofNat 10 k ∧ (search s).acc = accAt s k ∧ (search s).det = true ∧
      (search s).neg = negFlag (accAt s k) ∧ (search s).result = BitVec.ofInt 16 (signedShift k (accAt s k)) := by
  rcases search_outcome s with ⟨j, -, hqj, hj, h⟩ | ⟨hnone, -⟩
  · rcases Nat.lt_trichotomy j k with hlt | rfl | hgt
    · exact absurd hqj (by simp [hfirst j hlt])
    · exact h
    · exact absurd hq (by simp [hj k hgt])
  · exact absurd hq (by simp [hnone k hk])

/-- A search that no shift ends reports the sentinel (R125). -/
theorem search_of_none {s : State} (hnone : ∀ i, i < 1023 → qualifies (accAt s i) = false) :
    (search s).shift = BitVec.ofNat 10 1022 ∧ (search s).acc = accAt s 1022 ∧ (search s).det = false ∧ (search s).neg = false ∧
      (search s).result = BitVec.ofInt 16 Config.sentinel := by
  rcases search_outcome s with ⟨j, hj, hq, -⟩ | ⟨-, h⟩
  · exact absurd hq (by simp [hnone j hj])
  · exact h

theorem accAt_eq_formulaSum {s : State} (hm : MemWf s) (hf : SamplesFit s) (hu : ChipsAreUnits s) {k : Nat} (hk : k < 1023) :
    accAt s k = formulaSum s k := by
  rw [accAt_eq_corrSum hm hf hu, corrSum_eq_formulaSum hm hk]

/-- A shift whose sum does not exceed the threshold does not qualify. -/
theorem qualifies_eq_false {a : Int} (h : ¬Exceeds a) : qualifies a = false := by
  rwa [← Bool.not_eq_true, qualifies_iff]

/-- Settles O43: ACC at each shift is the formula's sum, so the first sum to exceed the threshold ends the search. -/
theorem searchReportsFirstQualifyingShift : Obligations.SearchReportsFirstQualifyingShift := by
  intro s k hm hf hu huv hk hex hfirst
  have hacc : ∀ j, j < 1023 → accAt s j = formulaSum s j := fun j hj => accAt_eq_formulaSum hm hf hu hj
  obtain ⟨hshift, ha, hdet, hneg, hres⟩ := search_of_first hk (by rwa [hacc k hk, qualifies_iff])
    (fun j hj => by rw [hacc j (hj.trans hk)]; exact qualifies_eq_false (hfirst j hj))
  rw [hacc k hk] at ha hneg hres
  refine ⟨_, exec_search huv, ?_, ha, hdet, search_done s, ?_, ?_⟩
  · rw [hshift, BitVec.toNat_ofNat, Nat.mod_eq_of_lt (hk.trans (by decide))]
  · rw [hneg, negFlag, decide_eq_true_iff]
  · rw [hres, signedShift_toInt hk, signedShift]

/-- Settles O44: no shift ends the search, so the last one evaluated stays in SHIFT and ACC. -/
theorem searchReportsSentinel : Obligations.SearchReportsSentinel := by
  intro s hm hf hu huv hnone
  have hacc : ∀ j, j < 1023 → accAt s j = formulaSum s j := fun j hj => accAt_eq_formulaSum hm hf hu hj
  obtain ⟨hshift, ha, hdet, hneg, hres⟩ := search_of_none (s := s) fun j hj => by
    rw [hacc j hj]; exact qualifies_eq_false (hnone j hj)
  refine ⟨_, exec_search huv, ?_, hdet, hneg, search_done s, ?_, ha.trans (hacc 1022 (by decide))⟩
  · rw [hres]; rfl
  · rw [hshift]; rfl

/-- Settles O48: the chips are the signal delayed by 0, whose peak 1023 fits ACC at every sample width. -/
theorem selfCorrelationDetectsShiftZero : Obligations.SelfCorrelationDetectsShiftZero := by
  intro s hm hu huv hsig
  have hsum : corrSum s 0 = 1023 := (delayedChipsPeakAtDelay s 0 hm hu (by decide) fun j hj => by
    rw [hsig j hj, Nat.sub_zero, Nat.add_mod_right, Nat.mod_eq_of_lt hj]).1
  have hacc : accAt s 0 = 1023 := by
    have hpow : (2 : Int) ^ 10 ≤ 2 ^ (s.width + 9) := pow_le_pow_right₀ (by decide) (by simp only [State.width, Config.widthOf]; omega)
    rw [accAt, hsum]
    exact narrow_acc_of_abs_lt (lt_of_lt_of_le (by decide) hpow)
  obtain ⟨hshift, ha, hdet, hneg, hres⟩ := search_of_first (s := s) (k := 0) (by decide) (by rw [hacc]; rfl) nofun
  rw [hacc] at ha hneg hres
  exact ⟨_, exec_search huv, ha, hshift, hres, hdet, hneg⟩

/-! ### What a search looks at -/

/-- Sum(k) speaks of samples and chips only. -/
theorem formulaSum_congr {s s' : State} (h : ∀ i, i < 1023 → s.sigAt i = s'.sigAt i ∧ s.unpkAt i = s'.unpkAt i) (k : Nat) :
    formulaSum s k = formulaSum s' k :=
  Finset.sum_congr rfl fun i hi => by
    rw [(h _ (Nat.mod_lt (i + k) (by decide))).1, (h i (Finset.mem_range.1 hi)).2]

/-- Settles O49: equal sums and equal widths give the same ACC at every shift, hence the same end of the search. -/
theorem searchDependsOnSignalAndChipsOnly : Obligations.SearchDependsOnSignalAndChipsOnly := by
  intro s s' hm hm' hu hu' hw hmem
  refine ⟨_, _, exec_search hu, exec_search hu', ?_⟩
  have hsum : ∀ k, k < 1023 → corrSum s' k = corrSum s k := fun k hk => by
    rw [corrSum_eq_formulaSum hm hk, corrSum_eq_formulaSum hm' hk, formulaSum_congr hmem]
  have hacc : ∀ k, k < 1023 → accAt s' k = accAt s k := fun k hk => by
    rw [accAt, accAt, hsum k hk, State.width, State.width, hw]
  rcases search_outcome s with ⟨k, hk, hq, hfirst, hs⟩ | ⟨hnone, hs⟩
  · have hs' := search_of_first (s := s') hk (by rwa [hacc k hk]) fun i hi => by rw [hacc i (hi.trans hk), hfirst i hi]
    simp only [hs, hs', hacc k hk, and_self]
  · have hs' := search_of_none (s := s') fun i hi => by rw [hacc i hi, hnone i hi]
    simp only [hs, hs', hacc 1022 (by decide), and_self]

end Sys2Proof.Machine
end

section
/-!
The housekeeping commands (spec/43_system_ops.md R140 to R142): none has a check of its own, so each is accepted in every state.
-/

namespace Sys2Proof.Machine

/-- CLRERR is accepted in every state (R141). -/
theorem exec_clrerr (s : State) : exec .clrerr s = .next s.clearError :=
  exec_accepted (i := .clrerr) rfl

/-- SRST is accepted in every state (R142). -/
theorem exec_srst (s : State) : exec .srst s = .next s.resetRegisters :=
  exec_accepted (i := .srst) rfl

/-- Settles O27: an accepted NOP leaves the state it met. -/
theorem nopChangesNothing : Obligations.NopChangesNothing :=
  fun _ => exec_accepted (i := .nop) rfl

/-- Settles O28: `clearError` sets the four error registers to 0 and keeps every other field. -/
theorem clrerrClearsErrorRegisters : Obligations.ClrerrClearsErrorRegisters := by
  intro s
  rw [exec_clrerr, State.clearError]

/-- Settles O29: the preset of the shift registers is 0x3FF and the sentinel is 10000; the memories stay. -/
theorem srstResetsRegisters : Obligations.SrstResetsRegisters := by
  intro s
  have hpreset : Config.lfsrPreset = 0x3FF := rfl
  have hsentinel : BitVec.ofInt 16 Config.sentinel = 10000 := by decide
  rw [exec_srst, State.resetRegisters, hpreset, hsentinel]

end Sys2Proof.Machine
end

section
/-!
Refused transactions (spec/60_exceptions.md R150 to R160, R169): which check raises which error, and what each error records.
-/

namespace Sys2Proof.Machine

open Sys2Proof.Safety

/-- Settles O6: the step finds no action to take. -/
theorem idleStepHoldsState : Obligations.IdleStepHoldsState := by
  intro s hs
  rw [step, nextAction, hs]

/-! ### Which error a check raises -/

theorem unreadable_iff (a : Nat) :
    unreadable a = true ↔
      a % 4 ≠ 0 ∨ a = 0 ∨ (0x24 ≤ a ∧ a < 0x80) ∨ (0x100 ≤ a ∧ a < 0x1000) ∨ (0x1FFC ≤ a ∧ a < 0x2000) ∨ 0x2FFC ≤ a := by
  simp [unreadable, or_assoc]

/-- A read of an address that is unreadable by R41 and R42 is BAD_ACCESS (R155). -/
theorem transact_read_unreadable {addr : Addr} (h : unreadable addr.toNat = true) (s : State) :
    transact (.read addr) s = .next (refusedState s .badAccess (.read addr)) := by
  rw [← refuse_eq, transact]
  split
  case isFalse => rfl
  case isTrue ha =>
    rw [unreadable_iff] at h
    rw [aligned_iff] at ha
    have hs := placeAt_spec addr.toNat
    generalize placeAt addr.toNat = p at hs
    cases p with
    | cmd | reserved => rfl
    | _ => exfalso; simp only at hs; omega

/-- A write of an address that is unwritable by R41 and R42 is BAD_ACCESS (R155). -/
theorem transact_write_unwritable {addr : Addr} (h : writable addr.toNat = false) (data : Word) (s : State) :
    transact (.write addr data) s = .next (refusedState s .badAccess (.write addr data)) := by
  rw [← refuse_eq, transact]
  split
  case isFalse => rfl
  case isTrue ha =>
    rw [← Bool.not_eq_true, writable_iff] at h
    rw [aligned_iff] at ha
    have hs := placeAt_spec addr.toNat
    generalize placeAt addr.toNat = p at hs
    cases p with
    | cmd | sig => exfalso; simp only at hs; omega
    | _ => rfl

/-- With CVALID = 0 a read of the CHIPW window is NO_CHIPS (R152). -/
theorem transact_read_chipw_refused {s : State} (hc : s.cvalid = false) {k : Nat} (hk : k < 32) :
    transact (.read (BitVec.ofNat 14 (0x0080 + 4 * k))) s =
      .next (refusedState s .noChips (.read (BitVec.ofNat 14 (0x0080 + 4 * k)))) := by
  rw [transact_read_aligned (chipw_addr hk) (by omega), placeAt_chipw hk, readPlace, if_neg (by simp [hc]), refuse_eq]

/-- With UVALID = 0 a read of the UNPK window is NO_UNPK (R153). -/
theorem transact_read_unpk_refused {s : State} (hu : s.uvalid = false) {i : Nat} (hi : i < 1023) :
    transact (.read (BitVec.ofNat 14 (0x2000 + 4 * i))) s =
      .next (refusedState s .noUnpk (.read (BitVec.ofNat 14 (0x2000 + 4 * i)))) := by
  rw [transact_read_aligned (unpk_addr hi) (by omega), placeAt_unpk hi, readPlace, if_neg (by simp [hu]), refuse_eq]

/-- A write to CMD whose word decodes runs the command (R24, R77). -/
theorem transact_write_command {w : Word} {i : Instr} (h : decode w = .ok i) (s : State) : transact (.write 0 w) s = exec i s := by
  have hw : transact (.write 0 w) s = writeCmd w s := rfl
  rw [hw, writeCmd, h]

/-- A write to CMD of a reserved word is BAD_CMD (R73, R154). -/
theorem transact_write_reserved {w : Word} (h : ∀ i, decode w ≠ .ok i) (s : State) :
    transact (.write 0 w) s = .next (refusedState s .badCmd (.write 0 w)) := by
  have hw : transact (.write 0 w) s = writeCmd w s := rfl
  rw [hw, writeCmd, ← refuse_eq]
  cases hd : decode w with
  | ok i => exact absurd hd (h i)
  | error e => rfl

/-- A write to CMD of a command that its own check refuses (R77, R157): the word of a command is the one it encodes to. -/
theorem transact_write_refused {s : State} {w : Word} {i : Instr} {c : ErrCode} (hd : decode w = .ok i)
    (hc : commandRefusal s i = some c) : transact (.write 0 w) s = .next (refusedState s c (.write 0 w)) := by
  rw [transact_write_command hd, exec_refused hc, commandTxn, (decodedWordReencodes w i hd).2]

/-- The element of a window that an aligned address of the window names. -/
theorem addr_eq_window {addr : Addr} (base : Nat) (ha : addr.toNat % 4 = 0) (hb : base % 4 = 0) (h : base ≤ addr.toNat) :
    addr = BitVec.ofNat 14 (base + 4 * ((addr.toNat - base) / 4)) :=
  BitVec.eq_of_toNat_eq (by rw [BitVec.toNat_ofNat]; omega)

/-- Settles O9: check by check, in the order of R57 and R77. -/
theorem refusedTransactionRecordsError : Obligations.RefusedTransactionRecordsError := by
  intro s t c h
  cases t with
  | read addr =>
    rw [refusalOf] at h
    split_ifs at h with hr hc hu <;> obtain rfl := Option.some.inj h
    · exact transact_read_unreadable hr s
    · obtain ⟨hlo, hhi, hc⟩ := hc
      have ha := ((unreadable_eq_false_iff _).1 (by simpa using hr)).1
      rw [addr_eq_window 0x80 ha rfl hlo]
      exact transact_read_chipw_refused hc (by omega)
    · obtain ⟨hlo, hu⟩ := hu
      obtain ⟨ha, -, -, -, -, hhi⟩ := (unreadable_eq_false_iff _).1 (by simpa using hr)
      rw [addr_eq_window 0x2000 ha rfl hlo]
      exact transact_read_unpk_refused hu (by omega)
  | write addr data =>
    rw [refusalOf] at h
    split_ifs at h with hw h0
    · obtain rfl := Option.some.inj h
      exact transact_write_unwritable hw data s
    · subst h0
      cases hd : decode data with
      | ok i => exact transact_write_refused hd (by simpa [hd] using h)
      | error e =>
        obtain rfl : ErrCode.badCmd = c := by simpa [hd] using h
        exact transact_write_reserved (by simp [hd]) s

/-! ### What each error records -/

/-- A refused read in numbers. -/
theorem refusedState_read (s : State) (c : ErrCode) (addr : Addr) :
    refusedState s c (.read addr) = (errorState s c.bits false (addr.setWidth 16)).answer 0 := by
  rw [← refuse_eq]
  rfl

/-- A refused write to CMD in numbers: ERRVAL is of the word. -/
theorem refusedState_write_cmd (s : State) (c : ErrCode) (w : Word) :
    refusedState s c (.write 0 w) = errorState s c.bits true (w.setWidth 16) := by
  rw [← refuse_eq]
  rfl

/-- A refused write to any other address in numbers: ERRVAL is the address. -/
theorem refusedState_write_addr (s : State) (c : ErrCode) {addr : Addr} (h : addr ≠ 0) (data : Word) :
    refusedState s c (.write addr data) = errorState s c.bits true (addr.setWidth 16) := by
  rw [← refuse_eq, refuse, raiseError, Txn.errVal, if_neg h]
  rfl

/-- Settles O12: an unwritable address is not CMD, so ERRVAL is the address. -/
theorem badAccessRefused : Obligations.BadAccessRefused := by
  refine fun s addr => ⟨fun h => ?_, fun h data => ?_⟩
  · rw [transact_read_unreadable h, refusedState_read, ErrCode.bits]
  · have h0 : addr ≠ 0 := by rintro rfl; cases h
    rw [transact_write_unwritable h, refusedState_write_addr s _ h0, ErrCode.bits]

/-- A word that decodes is one of the six words without operands, or matches GEN (R72). -/
theorem word_of_decode {w : Word} {i : Instr} (h : decode w = .ok i) :
    w ∈ [0x00000000, 0x00002000, 0x00003000, 0x00004000, 0x00005000, 0x00006000] ∨ w &&& 0xFFFFF00F = 0x00001000 := by
  cases i with
  | gen t1 t2 => exact .inr ((and_genMask_iff w).2 (gen_fields_of_decode h).1)
  | nop | unpack | search | corr | clrerr | srst =>
    obtain rfl := ((decode_eq_ok_iff w _).1 h).2
    exact .inl (by decide)

/-- Settles O13: a word that is no row of the opcode map does not decode. -/
theorem reservedWordIsBadCmd : Obligations.ReservedWordIsBadCmd := by
  intro s w hplain hgen
  have hres : ∀ i, decode w ≠ .ok i := fun i h => (word_of_decode h).elim hplain hgen
  rw [transact_write_reserved hres, refusedState_write_cmd, ErrCode.bits]

/-- Settles O14: the word decodes to a GEN whose operands are the two fields, and GEN's own check refuses them. -/
theorem tapRangeRefused : Obligations.TapRangeRefused := by
  intro s w hgen htaps
  rw [← bitField_eq_extractLsb' w 11 8, ← bitField_eq_extractLsb' w 7 4, Finset.mem_Icc, Finset.mem_Icc] at htaps
  obtain ⟨hz1, hop, hz0⟩ := (and_genMask_iff w).1 hgen
  have hc : commandRefusal s (.gen (bitField w 11 8) (bitField w 7 4)) = some .tapRange := if_neg (by omega)
  rw [transact_write_refused (decode_of_gen_fields hz1 hop hz0) hc, refusedState_write_cmd, ErrCode.bits]

/-- A refused command in numbers: ERRVAL is of its own word. -/
theorem exec_refused_eq_errorState {s : State} {i : Instr} {c : ErrCode} (h : commandRefusal s i = some c) :
    exec i s = .next (errorState s c.bits true ((encode i).setWidth 16)) := by
  rw [exec_refused h, commandTxn, refusedState_write_cmd]

/-- Settles O15: the guard CVALID of the two commands and of the CHIPW window. -/
theorem noChipsRefused : Obligations.NoChipsRefused := by
  intro s hc
  refine ⟨exec_refused_eq_errorState (i := .unpack) (c := .noChips) ?_, exec_refused_eq_errorState (i := .corr) (c := .noChips) ?_,
    fun k hk => ?_⟩
  · simp [commandRefusal, hc]
  · simp [commandRefusal, hc]
  · rw [transact_read_chipw_refused hc hk, refusedState_read, BitVec.setWidth_ofNat_of_le_of_lt (by decide) (by omega), ErrCode.bits]

/-- Settles O16: the guard UVALID of SEARCH and of the UNPK window. -/
theorem noUnpkRefused : Obligations.NoUnpkRefused := by
  intro s hu
  refine ⟨exec_refused_eq_errorState (i := .search) (c := .noUnpk) (by simp [commandRefusal, hu]), fun i hi => ?_⟩
  rw [transact_read_unpk_refused hu hi, refusedState_read, BitVec.setWidth_ofNat_of_le_of_lt (by decide) (by omega), ErrCode.bits]

end Sys2Proof.Machine
end

section
/-!
Accepted transactions and the error registers (spec/60_exceptions.md R158, R161, R162): only CLRERR and SRST write them, no check and no
operation looks at them.
-/

namespace Sys2Proof.Machine

open Sys2Proof.Safety

/-! ### What an accepted transaction does -/

/-- The word that a place shows to an accepted read (R41). -/
def placeWord (s : State) : Place → Word
  | .status => statusWord s
  | .result => resultWord s
  | .sum => sumWord s
  | .shift => shiftWord s
  | .genstat => genstatWord s
  | .lfsr => lfsrWord s
  | .errinfo => errinfoWord s
  | .config => configWord s
  | .chipw k => chipWord s k
  | .sig i => sigWord s i
  | .unpk i => unpkWord s i
  | .cmd | .reserved => 0

/-- A read that no check refuses answers with the word of its place. -/
theorem transact_read_accepted {s : State} {addr : Addr} (h : refusalOf s (.read addr) = none) :
    transact (.read addr) s = .next (s.answer (placeWord s (placeAt addr.toNat))) := by
  obtain ⟨hr, hc, hu⟩ := refusalOf_read_eq_none h
  rw [unreadable_eq_false_iff] at hr
  rw [transact_read_aligned rfl hr.1]
  have hs := placeAt_spec addr.toNat
  generalize placeAt addr.toNat = p at hs
  cases p with
  | cmd => exact absurd hs (by omega)
  | reserved => simp only [List.mem_cons, List.not_mem_nil] at hs; omega
  | chipw k => exact congrArg Host.Outcome.next (if_pos (hc hs.1 (by omega)))
  | unpk i => exact congrArg Host.Outcome.next (if_pos (hu hs.1))
  | _ => rfl

/-- Everything an accepted transaction can be (R41): a read, a write of a sample, or a command that its own check accepts. -/
theorem accepted_cases {s : State} {t : Txn} (h : refusalOf s t = none) :
    (∃ addr, t = .read addr) ∨ (∃ i v, i < 1023 ∧ t = .write (BitVec.ofNat 14 (0x1000 + 4 * i)) v) ∨
      ∃ i, i.WellFormed ∧ commandRefusal s i = none ∧ t = commandTxn i := by
  cases t with
  | read addr => exact .inl ⟨addr, rfl⟩
  | write addr data =>
    rcases refusalOf_write_eq_none h with ⟨rfl, i, hd, hc⟩ | ⟨ha, hlo, hhi⟩
    · obtain ⟨hi, rfl⟩ := (decode_eq_ok_iff data i).1 hd
      exact .inr (.inr ⟨i, hi, hc, rfl⟩)
    · exact .inr (.inl ⟨(addr.toNat - 0x1000) / 4, data, by omega, by rw [← addr_eq_window 0x1000 ha rfl hlo]⟩)

/-- A command that its own check accepts is performed. -/
theorem transact_command_accepted {s : State} {i : Instr} (hi : i.WellFormed) (hc : commandRefusal s i = none) :
    transact (commandTxn i) s = .next (performed i s) := by
  rw [commandTxn, transact_write_command (commandEncodingRoundTrip i hi), exec_accepted hc]

/-- A command other than CLRERR and SRST leaves the error registers alone (R161). -/
theorem performed_keeps_errors {i : Instr} (hclrerr : i ≠ .clrerr) (hsrst : i ≠ .srst) (s : State) :
    (performed i s).err = s.err ∧ (performed i s).errcode = s.errcode ∧ (performed i s).errwr = s.errwr ∧
      (performed i s).errval = s.errval := by
  cases i with
  | clrerr => exact absurd rfl hclrerr
  | srst => exact absurd rfl hsrst
  | nop | unpack => exact ⟨rfl, rfl, rfl, rfl⟩
  | gen t1 t2 => exact ⟨generate_err .., generate_errcode .., generate_errwr .., generate_errval ..⟩
  | search => exact ⟨search_err s, search_errcode s, search_errwr s, search_errval s⟩
  | corr =>
    rw [performed_corr]
    exact ⟨search_err _, search_errcode _, search_errwr _, search_errval _⟩

/-- No two commands have one transaction (R70). -/
theorem commandTxn_inj {i j : Instr} (hi : i.WellFormed) (hj : j.WellFormed) (h : commandTxn i = commandTxn j) : i = j := by
  have henc : encode i = encode j := (Txn.write.inj h).2
  have hdec := commandEncodingRoundTrip i hi
  rw [henc, commandEncodingRoundTrip j hj] at hdec
  exact (Except.ok.inj hdec).symm

/-- A write to the SIG window is no command. -/
theorem write_sig_ne_command {i : Nat} (hi : i < 1023) (v w : Word) : Txn.write (BitVec.ofNat 14 (0x1000 + 4 * i)) v ≠ .write 0 w := by
  intro h
  have haddr : (BitVec.ofNat 14 (0x1000 + 4 * i)).toNat = 0 := congrArg BitVec.toNat (Txn.write.inj h).1
  rw [sig_addr hi] at haddr
  omega

/-- Settles O10: of all accepted transactions only CLRERR and SRST write the error registers. -/
theorem acceptedTransactionRaisesNothing : Obligations.AcceptedTransactionRaisesNothing := by
  intro s u t h hu
  rcases accepted_cases h with ⟨addr, rfl⟩ | ⟨i, v, hi, rfl⟩ | ⟨i, hi, hc, rfl⟩
  · obtain rfl := Host.Outcome.next.inj ((transact_read_accepted h).symm.trans hu)
    exact ⟨rfl, rfl, rfl, rfl⟩
  · obtain rfl := Host.Outcome.next.inj ((transact_write_sig hi v s).symm.trans hu)
    rw [if_neg (not_or_intro (write_sig_ne_command hi v _) (write_sig_ne_command hi v _))]
    exact ⟨rfl, rfl, rfl, rfl⟩
  · obtain rfl := Host.Outcome.next.inj ((transact_command_accepted hi hc).symm.trans hu)
    by_cases hclrerr : i = .clrerr
    · subst hclrerr
      exact ⟨rfl, rfl, rfl, rfl⟩
    by_cases hsrst : i = .srst
    · subst hsrst
      exact ⟨rfl, rfl, rfl, rfl⟩
    rw [if_neg]
    case hnc =>
      rintro (h | h)
      · exact hclrerr (commandTxn_inj (j := .clrerr) hi rfl h)
      · exact hsrst (commandTxn_inj (j := .srst) hi rfl h)
    exact performed_keeps_errors hclrerr hsrst s

/-! ### Clearing the error registers first changes nothing but them -/

/-- The checks do not look at the error registers (R162). -/
@[simp] theorem refusalOf_clearError (s : State) (t : Txn) : refusalOf s.clearError t = refusalOf s t := by
  cases t <;> rfl

@[simp] theorem commandRefusal_clearError (s : State) (i : Instr) : commandRefusal s.clearError i = commandRefusal s i := by
  cases i <;> rfl

theorem placeAt_eq_status {a : Nat} (h : placeAt a = .status) : a = 0x04 := by
  have hs := placeAt_spec a
  rwa [h] at hs

theorem placeAt_eq_errinfo {a : Nat} (h : placeAt a = .errinfo) : a = 0x1C := by
  have hs := placeAt_spec a
  rwa [h] at hs

/-- Only STATUS and ERRINFO show the error registers. -/
theorem placeWord_clearError {p : Place} (hstatus : p ≠ .status) (herrinfo : p ≠ .errinfo) (s : State) :
    placeWord s.clearError p = placeWord s p := by
  cases p with
  | status => exact absurd rfl hstatus
  | errinfo => exact absurd rfl herrinfo
  | _ => rfl

theorem search_clearError (s : State) : search s.clearError = (search s).clearError := by
  obtain ⟨k, x, d, n, r, h, h'⟩ := search_agree (s := s) (t := s.clearError) rfl rfl rfl rfl
  rw [h, h']
  simp only [State.clearError, State.setOutcome, State.setSum, State.width]

theorem generate_clearError (t1 t2 : Nat) (s : State) : generate t1 t2 s.clearError = (generate t1 t2 s).clearError := by
  have hstart : genStart t1 t2 s.clearError = (genStart t1 t2 s).clearError := rfl
  have hrun : ∀ n (u : State), genRun n u.clearError = (genRun n u).clearError := fun _ _ => rfl
  have hflags : ∀ u : State, flagsAfterGen u.clearError = (flagsAfterGen u).clearError := fun _ => rfl
  rw [generate, hstart, hrun, hflags, generate]

/-- No command looks at the error registers. -/
theorem performed_clearError (i : Instr) (s : State) : performed i s.clearError = (performed i s).clearError := by
  cases i with
  | nop | unpack | clrerr | srst => rfl
  | gen t1 t2 => exact generate_clearError t1 t2 s
  | search => exact search_clearError s
  | corr => exact search_clearError (flagsInsideCorr (unpackAll s))

/-- The state without its error registers and without what reads returned. -/
def State.forgetErrors (s : State) : State :=
  { s.clearError with returned := [] }

@[simp] theorem State.forgetErrors_clearError (s : State) : s.clearError.forgetErrors = s.forgetErrors := rfl

/-- A transaction from a state with its error registers cleared: the next state differs in them only, and in the word that a read of
STATUS or ERRINFO returned. -/
theorem transact_clearError (s : State) (t : Txn) :
    ∃ u v, transact t s = .next u ∧ transact t s.clearError = .next v ∧ u.forgetErrors = v.forgetErrors ∧
      (t ≠ .read 0x0004 → t ≠ .read 0x001C → u.returned = v.returned) := by
  cases hr : refusalOf s t with
  | some c =>
    have hr' : refusalOf s.clearError t = some c := by rw [refusalOf_clearError, hr]
    exact ⟨_, _, refusedTransactionRecordsError s t c hr, refusedTransactionRecordsError s.clearError t c hr', rfl, fun _ _ => rfl⟩
  | none =>
    have hr' : refusalOf s.clearError t = none := by rw [refusalOf_clearError, hr]
    rcases accepted_cases hr with ⟨addr, rfl⟩ | ⟨i, v, hi, rfl⟩ | ⟨i, hi, hc, rfl⟩
    · refine ⟨_, _, transact_read_accepted hr, transact_read_accepted hr', rfl, fun hstatus herrinfo => ?_⟩
      rw [State.answer_returned, State.answer_returned, placeWord_clearError, State.clearError_returned]
      · exact fun hp => hstatus (congrArg Txn.read (BitVec.eq_of_toNat_eq (placeAt_eq_status hp)))
      · exact fun hp => herrinfo (congrArg Txn.read (BitVec.eq_of_toNat_eq (placeAt_eq_errinfo hp)))
    · exact ⟨_, _, transact_write_sig hi v s, transact_write_sig hi v s.clearError, rfl, fun _ _ => rfl⟩
    · have hc' : commandRefusal s.clearError i = none := by rw [commandRefusal_clearError, hc]
      refine ⟨_, _, transact_command_accepted hi hc, transact_command_accepted hi hc', ?_, fun _ _ => ?_⟩
      · rw [performed_clearError, State.forgetErrors_clearError]
      · rw [performed_clearError, State.clearError_returned]

/-- Settles O11: both states are the one with its error registers cleared, but for those registers. -/
theorem errorsGateNothing : Obligations.ErrorsGateNothing := by
  intro s s' t h
  obtain ⟨u, v, hu, hv, huv, hret⟩ := transact_clearError s t
  obtain ⟨u', v', hu', hv', huv', hret'⟩ := transact_clearError s' t
  rw [← h, hv] at hv'
  obtain rfl := Host.Outcome.next.inj hv'
  exact ⟨by rw [← refusalOf_clearError s, h, refusalOf_clearError], u, u', hu, hu', huv.trans huv'.symm,
    fun hstatus herrinfo => (hret hstatus herrinfo).trans (hret' hstatus herrinfo).symm⟩

end Sys2Proof.Machine
end

section
/-!
The two resets (spec/70_reset_and_hazards.md R180 to R183) and the hazard of a GEN before a SEARCH (R189).
-/

namespace Sys2Proof.Machine

open Sys2Proof.Safety

/-- A hard reset leaves the reset state, but for the fields that are the model's own (R180, R181, R182). -/
theorem State.hardReset_eq (s : State) :
    s.hardReset =
      { State.reset with widthCode := s.widthCode, epoch := s.epoch.next, script := s.script, returned := s.returned } := by
  have hsentinel : BitVec.ofInt 16 Config.sentinel = 10000 := by decide
  rw [State.hardReset, State.resetRegisters, hsentinel, State.forgetMemories, State.reset]

/-- Settles O50: the fields as `State.reset` writes them, and each view computed from them; CONFIG is `configWord_eq`, which holds in
every state. -/
theorem resetValues : Obligations.ResetValues := by
  have hresult : State.reset.result.toInt = 10000 := by decide
  exact ⟨⟨rfl, rfl, rfl, rfl, rfl, rfl, rfl, hresult⟩, ⟨rfl, rfl, rfl, rfl, rfl⟩, ⟨rfl, rfl, rfl, rfl⟩, ⟨rfl, rfl, rfl⟩,
    rfl, rfl, rfl, rfl, rfl, rfl, rfl, configWord_eq State.reset⟩

/-- Settles O51: the step is the hard reset itself, whatever transaction it cut short. -/
theorem hardResetStep : Obligations.HardResetStep :=
  fun _ _ _ hs => (step_of_script hs).trans (congrArg Host.Outcome.next (State.hardReset_eq _))

/-- Settles O52: a hard reset is SRST and then the loss of the memories, which the comparison puts back. -/
theorem srstAgainstHardReset : Obligations.SrstAgainstHardReset :=
  fun s => ⟨s.resetRegisters, s.hardReset, exec_srst s, rfl, rfl, State.resetRegisters_sigAt s⟩

/-- Settles O57: GEN leaves UVALID = 0, which SEARCH looks at, and CVALID = 1, which is all that CORR looks at. -/
theorem genInvalidatesUnpacked : Obligations.GenInvalidatesUnpacked := by
  intro s t1 t2 h1 h1' h2 h2'
  obtain ⟨hsearch, -⟩ := noUnpkRefused (generate t1 t2 s) (generate_uvalid t1 t2 s)
  refine ⟨_, exec_gen h1 h1' h2 h2' s, hsearch, _, exec_corr (generate_cvalid t1 t2 s), search_uvalid _, search_done _, ?_⟩
  calc (search (performed .unpack (generate t1 t2 s))).err
      = (performed .unpack (generate t1 t2 s)).err := search_err _
    _ = (generate t1 t2 s).err := (performed_keeps_errors (i := .unpack) nofun nofun _).1
    _ = s.err := generate_err t1 t2 s

end Sys2Proof.Machine
end

section
/-!
Runs (spec/70_reset_and_hazards.md R195, R196): every action within the contract completes, and ERR at the end of a run tells whether a
transaction of it was refused.
-/

namespace Sys2Proof.Machine

open Sys2Proof.Safety

/-! ### Every action completes -/

@[simp] theorem performed_script (i : Instr) (s : State) : (performed i s).script = s.script := by
  cases i with
  | gen t1 t2 => exact generate_script t1 t2 s
  | search => exact search_script s
  | corr => exact search_script (flagsInsideCorr (unpackAll s))
  | nop | unpack | clrerr | srst => rfl

/-- No operation of the block touches what the host does next. -/
theorem effect_script {a : HostAction} {s t : State} (h : Effect a s t) : t.script = s.script := by
  cases h with
  | performed i => exact performed_script i s
  | reset | refused | answered | sampled => rfl

/-- A completed step leaves the rest of the script. -/
theorem step_script {s t : State} {a : HostAction} {rest : List HostAction} (hs : s.script = a :: rest) (h : step s = .next t) :
    t.script = rest :=
  effect_script (step_effect hs h)

/-- A transaction, refused or accepted, completes (R40, R196). -/
theorem transact_completes (x : Txn) (s : State) : ∃ t, transact x s = .next t := by
  cases hr : refusalOf s x with
  | some c => exact ⟨_, refusedTransactionRecordsError s x c hr⟩
  | none =>
    obtain ⟨t, ht, -⟩ := transact_accepted hr
    exact ⟨t, ht⟩

/-- Every host action but an overlap completes (R56, R196). -/
theorem hostAct_completes {a : HostAction} (ha : ∀ t u, a ≠ .overlap t u) (s : State) : ∃ t, hostAct a s = .next t := by
  cases a with
  | transact x => exact transact_completes x s
  | subword | hardReset => exact ⟨_, rfl⟩
  | overlap t u => exact absurd rfl (ha t u)

/-- Settles O7: the step is the action itself, and of its effects none touches the script. -/
theorem everyActionCompletes : Obligations.EveryActionCompletes := by
  intro s a rest hs ha
  obtain ⟨t, ht⟩ := hostAct_completes ha (s.setScript rest)
  have hstep : step s = .next t := (step_of_script hs).trans ht
  exact ⟨t, hstep, step_script hs hstep⟩

/-! ### Good runs -/

/-- A run of some steps that ends has made the first of them. -/
theorem coreRun_succ_eq_next {M : Host.Core} {s u : M.State} {k : Nat} (h : M.run (k + 1) s = .next u) :
    ∃ t, M.step s = .next t ∧ M.run k t = .next u := by
  rw [Host.Core.run] at h
  cases hstep : M.step s with
  | next t => exact ⟨t, rfl, by simpa only [hstep] using h⟩
  | fault r | refused r => simp [hstep] at h

/-- A run ends where the run of its other actions ends, from the state that its first action leaves (R195). -/
theorem run_cons_eq_next_iff {a : HostAction} {rest : List HostAction} {s u : State} :
    run (a :: rest) s = .next u ↔ ∃ t, step (s.setScript (a :: rest)) = .next t ∧ run rest t = .next u := by
  constructor
  · intro h
    obtain ⟨t, (ht : step (s.setScript (a :: rest)) = .next t), hu⟩ := coreRun_succ_eq_next (M := core) (k := rest.length) h
    obtain rfl : t.script = rest := step_script rfl ht
    exact ⟨t, ht, hu⟩
  · rintro ⟨t, ht, hu⟩
    rw [run_cons (s := s) ht (step_script rfl ht), hu]

/-- A refused action leaves ERR = 1 (R157). -/
theorem err_of_refused {a : HostAction} {s t : State} (hr : Refused s a) (h : hostAct a s = .next t) : t.err = true := by
  cases a with
  | transact x =>
    obtain ⟨c, hc⟩ := hr
    obtain rfl := Host.Outcome.next.inj ((refusedTransactionRecordsError s x c hc).symm.trans h)
    rfl
  | subword x =>
    obtain rfl := Host.Outcome.next.inj ((subwordRefused s x).symm.trans h)
    rfl
  | hardReset | overlap => exact hr.elim

/-- What a step that does not clear the error registers says by ERR = 0 after it: ERR = 0 before it, and its action was not refused. -/
theorem step_err_eq_false_iff {s t : State} {a : HostAction} {rest : List HostAction}
    (ha : ¬Issues a .clrerr ∧ ¬Issues a .srst ∧ ¬Resets a) (h : step (s.setScript (a :: rest)) = .next t) :
    t.err = false ↔ s.err = false ∧ ¬Refused s a := by
  by_cases hr : Refused s a
  · have ht : t.err = true := err_of_refused (refused_setScript (s := s.setScript rest) (acts := s.script) hr) h
    simp [ht, hr]
  · obtain ⟨hclrerr, hsrst, hreset⟩ := ha
    rcases effect_err (step_effect rfl h) with he | ⟨-, hr'⟩ | ⟨-, hclears⟩
    · simp [he, hr]
    · exact absurd (refused_setScript hr') hr
    · simp [hclrerr, hsrst, hreset] at hclears

/-- ERR = 0 at the end of a run that never clears it says two things of the run: ERR = 0 at its start, and none of its transactions was
refused (R195). -/
theorem err_clear_and_good_iff {acts : List HostAction} (hacts : ∀ a, a ∈ acts → ¬Issues a .clrerr ∧ ¬Issues a .srst ∧ ¬Resets a)
    (s : State) : (s.err = false ∧ Good acts s) ↔ ∃ u, run acts s = .next u ∧ u.err = false := by
  induction acts generalizing s with
  | nil =>
    have hrun : run [] s = .next (s.setScript []) := rfl
    simp [Good, hrun]
  | cons a rest ih =>
    have ha := hacts a List.mem_cons_self
    have hrest := ih fun b hb => hacts b (List.mem_cons_of_mem a hb)
    constructor
    · rintro ⟨hs, hr, t, ht, hgood⟩
      obtain ⟨u, hu, he⟩ := (hrest t).1 ⟨(step_err_eq_false_iff ha ht).2 ⟨hs, hr⟩, hgood⟩
      exact ⟨u, run_cons_eq_next_iff.2 ⟨t, ht, hu⟩, he⟩
    · rintro ⟨u, hu, he⟩
      obtain ⟨t, ht, hu⟩ := run_cons_eq_next_iff.1 hu
      obtain ⟨hterr, hgood⟩ := (hrest t).2 ⟨u, hu, he⟩
      obtain ⟨hs, hr⟩ := (step_err_eq_false_iff ha ht).1 hterr
      exact ⟨hs, hr, t, ht, hgood⟩

/-- Settles O60: with ERR = 0 at the start, the run is good exactly when it ends with ERR = 0. -/
theorem goodRunEndsWithErrClear : Obligations.GoodRunEndsWithErrClear := by
  intro acts s hs hacts
  rw [← err_clear_and_good_iff hacts s, and_iff_right hs]

end Sys2Proof.Machine
end
